-- ==== Sys2Proof/Word.lean ====
section
/-! DEFINITION. Word.lean: the bit widths the spec names (R11, R12, R70) and what may stand on the block's ports at one
instant (R16, R79): plain data, no arithmetic of its own. -/

namespace Sys2Proof

/-- One byte: a frame buffer byte (R21) or a field of a frame (R71). -/
abbrev Byte := BitVec 8

/-- The level of one line: 0 = LOW, 1 = HIGH (R16). -/
abbrev Level := BitVec 1

/-- A 32-bit value: a binary32 pattern (R25) or a response word (R78). -/
abbrev Word32 := BitVec 32

/-- A value of `now_ms`, a count of milliseconds `TS_WIDTH` bits wide (R7, R15). Its width is that of `config.tsWidth`
(`millis_width`). -/
abbrev Millis := BitVec 32

/-- A host command word (R76). -/
abbrev CommandWord := BitVec 8

/-- A channel mask: bit 0 = Object, bit 1 = Environment (R14). -/
abbrev Mask := BitVec 2

/-- What a party outside the block presents: a command word of the host (R76), a falling edge of `clk_in` as the tuple
`(d, t)` (format E, R79), or one look at the two lines as the tuple `(c, d)` (format L, R79). -/
inductive Event where
  | cmd (cw : CommandWord)
  | edge (e : BitVec 33)
  | poll (l : BitVec 2)
  deriving DecidableEq, Repr

/-- One instant on the ports: the level of `rst`, and the event presented at that instant, if any (R16, R179). -/
structure Instant where
  rst : Bool
  event : Option Event
  deriving DecidableEq, Repr

/-- What an operation's encoding is made of (R70, R80): the `rst` port, an event word, the 40 bits of a frame, or no
encoding at all (the internal operations). -/
inductive Code where
  | rstPort
  | event (e : Event)
  | frame (f : BitVec 40)
  | internal
  deriving DecidableEq, Repr

end Sys2Proof
end

