-- ==== Sys2Proof/Syntax.lean ====
section
/-! DEFINITION. Syntax.lean: the operations of the block, one constructor per row of spec/opcode_table.json (R9, R80). -/

namespace Sys2Proof

/-- The two channels (R14). -/
inductive Channel where
  | obj
  | env
  deriving DecidableEq, Repr

/-- The position of the blocking sequencer (R33); it selects which of the two `POLL` rows a level event is (R80). -/
inductive Phase where
  | idle
  | waitLow
  | waitHigh
  deriving DecidableEq, Repr

/-- The nineteen operations of the opcode table. -/
inductive Instr where
  /-- `READ m` (R140): blocking read for the channels of the mask. -/
  | read (m : Mask)
  /-- `START` (R120): open a conversion window. -/
  | start
  /-- `END` (R121): close the conversion window. -/
  | endConv
  /-- `GETO` (R160): read and acknowledge the Object temperature. -/
  | getO
  /-- `GETE` (R161): read and acknowledge the Environment temperature. -/
  | getE
  /-- `PEEKO` (R162): read the Object flag. -/
  | peekO
  /-- `PEEKE` (R163): read the Environment flag. -/
  | peekE
  /-- `EDGE d t` (R122): one falling edge of the clock line. -/
  | edge (d : Level) (t : Millis)
  /-- `POLL c d` in phase `WAIT_LOW` (R142). -/
  | pollWaitLow (c d : Level)
  /-- `POLL c d` in phase `WAIT_HIGH` (R143). -/
  | pollWaitHigh (c d : Level)
  /-- `VALIDATE` on the frame whose five bytes are the operands (R106, R71). -/
  | validate (addr magHi magLo csum term : Byte)
  /-- `OBJ_FRAME`: the frame class that writes the Object entry (R80, R106). -/
  | objFrame (magHi magLo csum : Byte)
  /-- `ENV_FRAME`: the frame class that writes the Environment entry (R80, R106). -/
  | envFrame (magHi magLo csum : Byte)
  /-- `SHIFT(i, d)` (R100): one bit into buffer byte `i`. -/
  | shift (i : BitVec 3) (d : Level)
  /-- `CHECKSUM()` (R101). -/
  | checksum
  /-- `TERM()` (R102). -/
  | terminator
  /-- `CLASSIFY()` (R104). -/
  | classify
  /-- `CONVERT(b1, b2)` (R105). -/
  | convert (b1 b2 : Byte)
  /-- `RESET` (R200). -/
  | reset
  deriving DecidableEq, Repr

end Sys2Proof
end

