-- ==== Sys2Proof/Config.lean ====
section
/-! DEFINITION. Config.lean: the parameters of the block (R7), each a named field with the value this hardware takes,
and the values the spec leaves open, as constants without a body. -/

namespace Sys2Proof

/-- The end of a byte at which a wire bit enters (R53, D5). -/
inductive BitOrder where
  | msbFirst
  | lsbFirst
  deriving DecidableEq, Repr

/-- How the decoding formula is evaluated (R105, R110, D8). -/
inductive TempConv where
  | exactRne
  | f32Chain
  deriving DecidableEq, Repr

/-- The parameters of R7. -/
structure Config where
  /-- `FRAME_BYTES`. -/
  frameBytes : Nat
  /-- `FRAME_BITS`. -/
  frameBits : Nat
  /-- `MAX_ATTEMPTS`. -/
  maxAttempts : Nat
  /-- `FRAME_TIMEOUT_MS`. -/
  frameTimeoutMs : Nat
  /-- `SCALE_DIVISOR`. -/
  scaleDivisor : Nat
  /-- `KELVIN_OFFSET` in hundredths of a degree: the exact decimal 27315/100. -/
  kelvinOffsetHundredths : Nat
  /-- `END_MARKER`. -/
  endMarker : Byte
  /-- `OBJECT_ADDRESS`. -/
  objectAddress : Byte
  /-- `ENVIRONMENT_ADDRESS`. -/
  environmentAddress : Byte
  /-- `MASK_OBJ`. -/
  maskObj : Mask
  /-- `MASK_ENV`. -/
  maskEnv : Mask
  /-- `BIT_ORDER`. -/
  bitOrder : BitOrder
  /-- `TEMP_CONV`. -/
  tempConv : TempConv
  /-- `TS_WIDTH`: how many bits a time has. -/
  tsWidth : Nat
  deriving DecidableEq, Repr

/-- The values of R7. -/
def config : Config where
  frameBytes := 5
  frameBits := 40
  maxAttempts := 10
  frameTimeoutMs := 25
  scaleDivisor := 16
  kelvinOffsetHundredths := 27315
  endMarker := 0x0D
  objectAddress := 0x4C
  environmentAddress := 0x66
  maskObj := 0b01
  maskEnv := 0b10
  bitOrder := .msbFirst
  tempConv := .exactRne
  tsWidth := 32

/-- `EDGE_CAPABLE` (R7, R32, D22): the strap the spec leaves OPEN. No body: nothing can be proved of its value. It is
the value the strap has in `State.reset`; a step reads the strap from the state (assumption 3). -/
opaque Config.edgeCapable : Bool

/-- What `x[ch]` holds after a reset (R37, D30, U1): "a draw (any 32-bit value, the same on every read until a decode
writes the register)". Applied to the channel and to a count of the draws made so far (assumption 2). -/
opaque Config.unspecifiedTemp : Channel → Nat → Word32

end Sys2Proof
end

