-- ==== Sys2Proof/Machine/Frame.lean ====
section
/-! DEFINITION. Machine/Frame.lean: the 40-bit frame (R71, R72), the tests of the validator (R101 to R104) and the
operand assembly of R73 to R75. No machine state. -/

namespace Sys2Proof

/-- The five bytes of a frame, in order of arrival (R71). -/
structure Frame where
  addr : Byte
  magHi : Byte
  magLo : Byte
  csum : Byte
  term : Byte
  deriving DecidableEq, Repr

/-- The frame as one 40-bit value, `b0` in bits 39..32 (R71). -/
def Frame.toWord (f : Frame) : BitVec 40 :=
  f.addr ++ f.magHi ++ f.magLo ++ f.csum ++ f.term

/-- The five bytes of a 40-bit value (R71). -/
def Frame.ofWord (w : BitVec 40) : Frame where
  addr := w.extractLsb' 32 8
  magHi := w.extractLsb' 24 8
  magLo := w.extractLsb' 16 8
  csum := w.extractLsb' 8 8
  term := w.extractLsb' 0 8

/-- The `k`-th bit on the wire: `w[k] = F[39 - k]` (R72). -/
def Frame.wireBit (w : BitVec 40) (k : Nat) : Level :=
  w.extractLsb' (39 - k) 1

/-- `sum8`: the low 8 bits of the 10-bit sum of the first three bytes (R75, R101). -/
def sum8 (b0 b1 b2 : Byte) : Byte :=
  (b0.setWidth 10 + b1.setWidth 10 + b2.setWidth 10).setWidth 8

/-- `cs_ok` (R101). -/
def Frame.checksumOk (f : Frame) : Bool :=
  sum8 f.addr f.magHi f.magLo == f.csum

/-- `term_ok` (R102). -/
def Frame.termOk (f : Frame) : Bool :=
  f.term == config.endMarker

/-- `valid = cs_ok and term_ok`, whatever the address (R103). -/
def Frame.valid (f : Frame) : Bool :=
  f.checksumOk && f.termOk

/-- `CLASSIFY`: the channel an address byte stands for, `none` for the spec's `NONE` (R104). -/
def classifyAddr (a : Byte) : Option Channel :=
  if a = config.objectAddress then some .obj
  else if a = config.environmentAddress then some .env
  else none

/-- The mask of one channel (R14). -/
def Channel.mask : Channel → Mask
  | .obj => config.maskObj
  | .env => config.maskEnv

/-- `raw12 = b1 * 256 + b2`: the unsigned 16-bit magnitude, not masked to 12 bits (R52, R73, C3). -/
def raw12 (b1 b2 : Byte) : Nat :=
  b1.toNat * 256 + b2.toNat

end Sys2Proof
end

