-- ==== Sys2Proof/Machine/Convert.lean ====
section
/-! DEFINITION. Machine/Convert.lean: binary32 and the temperature decoder (R105, R109, R110), in exact integer
arithmetic with one rounding. No machine state. -/

namespace Sys2Proof

/-- Whether `n / d` is at least 2 to the power `e`. -/
def atLeastPow2 (n d : Nat) (e : Int) : Bool :=
  decide (d * 2 ^ e.toNat ≤ n * 2 ^ (-e).toNat)

/-- The exponent `e` with `2^e ≤ n / d < 2^(e+1)`, for positive `n` and `d`. -/
def floorLog2 (n d : Nat) : Int :=
  let e : Int := (n.log2 : Int) - (d.log2 : Int)
  if atLeastPow2 n d e then e else e - 1

/-- The natural number nearest `n / d`, ties to even. -/
def roundHalfEven (n d : Nat) : Nat :=
  let q := n / d
  let r := n % d
  if d < 2 * r ∨ (2 * r = d ∧ q % 2 = 1) then q + 1 else q

/-- The exponent of the unit in the last place of binary32 at `n / d`: normal numbers have 24 significant bits, and below
2^-126 the unit stays 2^-149 (R109). -/
def ulpExponent (n d : Nat) : Int :=
  max (floorLog2 n d) (-126) - 23

/-- The exponent and fraction bits of the binary32 value nearest `n / d`, ties to even; from 2^128 up, infinity. -/
def rneMagnitude (n d : Nat) : Nat :=
  if n = 0 then 0
  else
    let k := ulpExponent n d
    let m := roundHalfEven (n * 2 ^ (-k).toNat) (d * 2 ^ k.toNat)
    min ((k + 149).toNat * 2 ^ 23 + m) 0x7F800000

/-- `RNE32(num / den)` (R12): the IEEE 754 binary32 value nearest the exact rational, ties to even. -/
def rne32 (num : Int) (den : Nat) : Word32 :=
  BitVec.ofNat 32 ((if num < 0 then 2 ^ 31 else 0) + rneMagnitude num.natAbs den)

/-- The exponent field of a binary32 pattern (R109). -/
def f32Exponent (p : Word32) : Nat :=
  (p.extractLsb' 23 8).toNat

/-- The fraction field of a binary32 pattern (R109). -/
def f32Fraction (p : Word32) : Nat :=
  (p.extractLsb' 0 23).toNat

/-- Whether a binary32 pattern is a finite number. -/
def f32Finite (p : Word32) : Bool :=
  decide (f32Exponent p < 255)

/-- The value of a finite binary32 pattern, in units of 2^-149 (R109). -/
def f32Scaled (p : Word32) : Int :=
  let mag : Nat :=
    if f32Exponent p = 0 then f32Fraction p
    else (2 ^ 23 + f32Fraction p) * 2 ^ (f32Exponent p - 1)
  if p.msb then -(mag : Int) else (mag : Int)

/-- The exact numerator over 10000: `N = 625 * raw12 - 2731500`, a signed integer (R105). -/
def celsiusNumerator (raw : Nat) : Int :=
  ((10000 / config.scaleDivisor * raw : Nat) : Int) - ((config.kelvinOffsetHundredths * 100 : Nat) : Int)

/-- `TEMP_CONV = EXACT_RNE` (R105): one correct rounding of the exact value. -/
def convertExact (raw : Nat) : Word32 :=
  rne32 (celsiusNumerator raw) 10000

/-- `fdiv32` on finite operands, the divisor not zero (R110). -/
def fdiv32 (a b : Word32) : Word32 :=
  let n := f32Scaled a
  let d := f32Scaled b
  rne32 (if d < 0 then -n else n) d.natAbs

/-- `fsub32` on finite operands (R110). -/
def fsub32 (a b : Word32) : Word32 :=
  rne32 (f32Scaled a - f32Scaled b) (2 ^ 149)

/-- `TEMP_CONV = F32_CHAIN` (R110): every intermediate in binary32. -/
def convertChain (raw : Nat) : Word32 :=
  fsub32 (fdiv32 (rne32 raw 1) (rne32 config.scaleDivisor 1)) (rne32 config.kelvinOffsetHundredths 100)

/-- The temperature of a 16-bit magnitude, as `TEMP_CONV` says. -/
def convertRaw (raw : Nat) : Word32 :=
  match config.tempConv with
  | .exactRne => convertExact raw
  | .f32Chain => convertChain raw

/-- `CONVERT(b1, b2)` (R105). -/
def convertBytes (b1 b2 : Byte) : Word32 :=
  convertRaw (raw12 b1 b2)

end Sys2Proof
end

