-- ==== Sys2Proof/Decode.lean ====
section
/-! DEFINITION. Decode.lean: from the bits on a port to the operation they select (R76, R79, R80, R82), total and
rejecting by name, and the encoder beside it, both from the spec's encodings. -/

namespace Sys2Proof

/-- Why bits select no operation. -/
inductive Reject where
  /-- One of the 246 reserved command words (R82). -/
  | reservedCommand (cw : CommandWord)
  /-- The event makes no step in this phase: a look at the lines while no read is in progress (R141, R223). -/
  | noStep
  /-- The operation has no encoding of its own (R80). -/
  | noEncoding
  deriving DecidableEq, Repr

/-- The command word of an operation: `cw[7:4] = op`, `cw[3:2] = 0`, `cw[1:0] = arg` (R76). -/
def commandWord (op : BitVec 4) (arg : BitVec 2) : CommandWord :=
  op ++ (0 : BitVec 2) ++ arg

/-- The host commands (R76); every other word is reserved (R82). -/
def decodeCommand (cw : CommandWord) : Except Reject Instr :=
  let op := cw.extractLsb' 4 4
  let arg := cw.extractLsb' 0 2
  if cw.extractLsb' 2 2 ≠ 0 then .error (.reservedCommand cw)
  else if op = 0x1 then .ok (.read arg)
  else if op = 0x2 ∧ arg = 0 then .ok .start
  else if op = 0x3 ∧ arg = 0 then .ok .endConv
  else if op = 0x4 ∧ arg = 0 then .ok .getO
  else if op = 0x4 ∧ arg = 1 then .ok .getE
  else if op = 0x5 ∧ arg = 0 then .ok .peekO
  else if op = 0x5 ∧ arg = 1 then .ok .peekE
  else .error (.reservedCommand cw)

/-- The edge tuple: `d` is bit 32 and `t` bits 31..0 (R79). -/
def decodeEdge (e : BitVec 33) : Instr :=
  .edge (e.extractLsb' 32 1) (e.extractLsb' 0 32)

/-- The level tuple: `c` is bit 1 and `d` bit 0; the row is selected by `phase` alone (R79, R80), and outside a blocking
read there is no such step (R141). -/
def decodePoll (ph : Phase) (l : BitVec 2) : Except Reject Instr :=
  match ph with
  | .idle => .error .noStep
  | .waitLow => .ok (.pollWaitLow (l.extractLsb' 1 1) (l.extractLsb' 0 1))
  | .waitHigh => .ok (.pollWaitHigh (l.extractLsb' 1 1) (l.extractLsb' 0 1))

/-- The frame: its class where it is of one, `VALIDATE` of its five bytes otherwise (R80, R81). -/
def decodeFrame (w : BitVec 40) : Instr :=
  let f := Frame.ofWord w
  match f.valid, classifyAddr f.addr with
  | true, some .obj => .objFrame f.magHi f.magLo f.csum
  | true, some .env => .envFrame f.magHi f.magLo f.csum
  | _, _ => .validate f.addr f.magHi f.magLo f.csum f.term

/-- The decoder: `rst` selects `RESET`, an event is read by its kind, a frame by its layout (R80). -/
def decode (ph : Phase) : Code → Except Reject Instr
  | .rstPort => .ok .reset
  | .event (.cmd cw) => decodeCommand cw
  | .event (.edge e) => .ok (decodeEdge e)
  | .event (.poll l) => decodePoll ph l
  | .frame w => .ok (decodeFrame w)
  | .internal => .error .noEncoding

/-- The encoder, from the same tables (R71, R76, R79, R80). -/
def encode : Instr → Code
  | .read m => .event (.cmd (commandWord 0x1 m))
  | .start => .event (.cmd (commandWord 0x2 0))
  | .endConv => .event (.cmd (commandWord 0x3 0))
  | .getO => .event (.cmd (commandWord 0x4 0))
  | .getE => .event (.cmd (commandWord 0x4 1))
  | .peekO => .event (.cmd (commandWord 0x5 0))
  | .peekE => .event (.cmd (commandWord 0x5 1))
  | .edge d t => .event (.edge (d ++ t))
  | .pollWaitLow c d => .event (.poll (c ++ d))
  | .pollWaitHigh c d => .event (.poll (c ++ d))
  | .validate a b c s e => .frame (Frame.toWord ⟨a, b, c, s, e⟩)
  | .objFrame b c s => .frame (Frame.toWord ⟨config.objectAddress, b, c, s, config.endMarker⟩)
  | .envFrame b c s => .frame (Frame.toWord ⟨config.environmentAddress, b, c, s, config.endMarker⟩)
  | .shift _ _ => .internal
  | .checksum => .internal
  | .terminator => .internal
  | .classify => .internal
  | .convert _ _ => .internal
  | .reset => .rstPort

/-- The phases in which an operation's bits select it: the two `POLL` rows share their bits and are told apart by
`phase` (R80); every other encoding is read alike in every phase. -/
def Instr.selectedIn : Instr → Phase → Bool
  | .pollWaitLow _ _, ph => ph == .waitLow
  | .pollWaitHigh _ _, ph => ph == .waitHigh
  | _, _ => true

/-- What an instant on the ports selects: `rst` wins over anything presented with it (R179). -/
def Instant.code (i : Instant) : Option Code :=
  if i.rst then some .rstPort else i.event.map .event

/-- The code whose bits are `w`, by the length the spec gives its format (R70): 8 a command word, 33 an edge tuple, 2 a
level tuple, 40 a frame. -/
def codeOfBits (nbits w : Nat) : Option Code :=
  match nbits with
  | 8 => some (.event (.cmd (BitVec.ofNat 8 w)))
  | 33 => some (.event (.edge (BitVec.ofNat 33 w)))
  | 2 => some (.event (.poll (BitVec.ofNat 2 w)))
  | 40 => some (.frame (BitVec.ofNat 40 w))
  | _ => none

/-- The phase a word is read in when it is looked up by its bits alone: `WAIT_LOW` for a level tuple (assumption 7). -/
def lookupPhase : Nat → Phase
  | 2 => .waitLow
  | _ => .idle

/-- The operation the decoder reads from a row's bits, numbered as the table numbers them. -/
def decodeTableWord (nbits w : Nat) : Option Instr :=
  (codeOfBits nbits w).bind fun c => (decode (lookupPhase nbits) c).toOption

end Sys2Proof
end

