-- ==== Sys2Proof/Machine/State.lean ====
section
/-! DEFINITION. Machine/State.lean: the state of the block (R20), the reasons a step can stop, and the state after
reset (R36). Plain data. -/

namespace Sys2Proof.Machine

/-- The frame buffer as memory: (byte index, byte) pairs, indices strictly rising, no pair equal to what an unlisted
index reads as (R21, R50). Its canonical form is `Memory.wf`. -/
abbrev Memory := List Host.Cell

/-- What an unlisted buffer byte reads as: the value every buffer byte has after `RESET` (R36). -/
def unlistedByte : Byte := 0x00

/-- The six conditions of the block (R170). None is a trap: a condition is bookkeeping and moves no control (R12, R181). -/
inductive Condition where
  | checksumMismatch
  | terminatorMismatch
  | unknownAddress
  | unsupportedInterruptPin
  | acquisitionTimeout
  | attemptsExhausted
  deriving DecidableEq, Repr

/-- What an internal operation hands to the operation that invoked it: it appears on no port (R107). -/
inductive Returned where
  | nothing
  /-- `cs_ok` (R101). -/
  | checksumOk (b : Bool)
  /-- `term_ok` (R102). -/
  | termOk (b : Bool)
  /-- `class` (R104). -/
  | channelClass (c : Option Channel)
  /-- `T` (R105). -/
  | temperature (t : Word32)
  /-- The result mask `r` (R106). -/
  | mask (r : Mask)
  deriving DecidableEq, Repr

/-- The state. The first group is the record of R20, every field of it and nothing more; the second is the strap (R32);
the third is the MODEL's own: what stands outside the block and on its output ports, which the spec hands to a step
as its event and takes from it as its response (assumptions 1, 4 and 6). -/
structure State where
  /-- `buf[0..4]` (R21). -/
  buf : Memory
  /-- `bit_index`, 6 bits, 0..40 (R23). -/
  bitIndex : BitVec 6
  /-- `start_ts`, `TS_WIDTH` bits (R24). -/
  startTs : Millis
  /-- `x[OBJ]`, a binary32 pattern (R25). -/
  xObj : Word32
  /-- `x[ENV]`, a binary32 pattern (R25). -/
  xEnv : Word32
  /-- `upd[OBJ]` (R28). -/
  updObj : Bool
  /-- `upd[ENV]` (R28). -/
  updEnv : Bool
  /-- `armed`: the edge callback is registered (R31). -/
  armed : Bool
  /-- `ack`: the level driven on the acknowledge line, true = HIGH (R30). -/
  ack : Bool
  /-- `phase` (R33). -/
  phase : Phase
  /-- `attempt`, 4 bits, 0..9 (R33). -/
  attempt : BitVec 4
  /-- `blk_bit`, 6 bits, 0..39 (R33). -/
  blkBit : BitVec 6
  /-- `req`, 2 bits (R33). -/
  req : Mask
  /-- `got`, 2 bits (R33). -/
  got : Mask
  /-- `EDGE_CAPABLE`: no state of the spec's but its strap, constant for the life of the block (R32, assumption 3). -/
  edgeCapable : Bool
  /-- The MODEL's own: what the host and the sensor present, in the order in which it is presented (R10, R61). -/
  inputs : List Instant
  /-- The MODEL's own: `rsp_valid` and `rsp` as the last step left them (R16, R78). -/
  rsp : Option Word32
  /-- The MODEL's own: whether `live_tick` pulsed in the last step (R147). -/
  liveTick : Bool
  /-- The MODEL's own: the conditions the last step met, in order; no rule reads it (R177, R180). -/
  raised : List Condition
  /-- The MODEL's own: what the last internal operation handed back when it was performed by itself. -/
  returned : Returned
  /-- The MODEL's own: how many unspecified values have been drawn (R37). -/
  draws : Nat
  deriving DecidableEq, Repr

/-- Why the machine stops with a fault. The spec has none ("There are no fatal conditions in the core", R17, R170), and
no state that meets the invariant R38 raises one. -/
inductive Fault where
  /-- Raised by `SHIFT`, `EDGE` and `POLL` for a frame buffer byte other than 0..4, which does not exist (R34, R50). SAFE:
  a state of the block never asks for one (R38). -/
  | noSuchBufferByte (i : Nat)
  deriving DecidableEq, Repr

/-- Why an event is given no meaning (R17). -/
inductive Refusal where
  /-- Raised by `exec` for an operation that has no meaning yet; no operation is in that case. SAFE. -/
  | notModelled (mnemonic : String)
  /-- Raised by `step` when the host presents one of the 246 reserved command words: "a model refuses it" (R82, U3). SAFE:
  the hardware goes on. -/
  | reservedCommand (cw : CommandWord)
  /-- Raised by `READ` inside a conversion window: "hardware behaviour is undefined; a model refuses the command"
  (R149, U2). SAFE: the hardware goes on. -/
  | readWhileArmed
  deriving DecidableEq, Repr

/-- The block right after reset (R36), no event waiting and nothing on the output ports. -/
def State.reset : State where
  buf := []
  bitIndex := 0
  startTs := 0
  xObj := Config.unspecifiedTemp .obj 0
  xEnv := Config.unspecifiedTemp .env 0
  updObj := false
  updEnv := false
  armed := false
  ack := true
  phase := .idle
  attempt := 0
  blkBit := 0
  req := 0
  got := 0
  edgeCapable := Config.edgeCapable
  inputs := []
  rsp := none
  liveTick := false
  raised := []
  returned := .nothing
  draws := 1

end Sys2Proof.Machine
end

