-- ==== Sys2Proof/Machine/Ops.lean ====
section
/-! DEFINITION. Machine/Ops.lean: the named operations on the frame buffer, the register file, the accumulator and the
output ports, and the one operation by which a condition occurs. -/

namespace Sys2Proof.Machine

/-- `MemRead(a, 1)` (R12): the byte at an index; an unlisted index reads as the reset contents. -/
def Memory.get : Memory → Nat → Byte
  | [], _ => unlistedByte
  | (k, v) :: m, a => if k = a then v else Memory.get m a

/-- `MemWrite(a, 1, v)` (R12), in canonical form: writing what an unlisted index reads as removes the entry. -/
def Memory.put : Memory → Nat → Byte → Memory
  | [], a, v => if v = unlistedByte then [] else [(a, v)]
  | (k, w) :: m, a, v =>
    if a < k then (if v = unlistedByte then (k, w) :: m else (a, v) :: (k, w) :: m)
    else if a = k then (if v = unlistedByte then m else (a, v) :: m)
    else (k, w) :: Memory.put m a v

/-- Indices strictly rising from `lo`, all in the buffer, no entry that an unlisted index would read as. -/
def Memory.wfFrom (lo : Nat) : Memory → Bool
  | [] => true
  | (k, v) :: m => decide (lo ≤ k) && decide (k < config.frameBytes) && v != unlistedByte && Memory.wfFrom (k + 1) m

/-- The canonical form of the frame buffer. -/
def Memory.wf (m : Memory) : Bool :=
  Memory.wfFrom 0 m

/-- The whole buffer read as a frame, as `VALIDATE` reads it (R50, R71). -/
def Memory.frame (m : Memory) : Frame :=
  ⟨m.get 0, m.get 1, m.get 2, m.get 3, m.get 4⟩

/-- A whole frame laid into an empty buffer, byte 0 first (R51, R60). -/
def Memory.ofFrame (f : Frame) : Memory :=
  ((((Memory.put [] 0 f.addr).put 1 f.magHi).put 2 f.magLo).put 3 f.csum).put 4 f.term

/-- One buffer byte of a state. -/
def State.byteAt (s : State) (a : Nat) : Byte :=
  s.buf.get a

/-- The frame that stands in the buffer. -/
def State.frame (s : State) : Frame :=
  s.buf.frame

/-- `x[ch]` (R12, R25). -/
def State.x (s : State) : Channel → Word32
  | .obj => s.xObj
  | .env => s.xEnv

/-- `upd[ch]` (R12, R28). -/
def State.upd (s : State) : Channel → Bool
  | .obj => s.updObj
  | .env => s.updEnv

/-- `x[ch] <- v; upd[ch] <- 1` as one indivisible update (R64, R106). -/
def State.storeTemp (s : State) (ch : Channel) (v : Word32) : State :=
  match ch with
  | .obj => { s with xObj := v, updObj := true }
  | .env => { s with xEnv := v, updEnv := true }

/-- `upd[ch] <- 0` (R160, R161). -/
def State.clearUpd (s : State) (ch : Channel) : State :=
  match ch with
  | .obj => { s with updObj := false }
  | .env => { s with updEnv := false }

/-- `raise c` (R12): the condition occurs. There is no trap entry: "Nothing is saved, no mode changes, no mask changes, no
stack is used, control goes nowhere" (R181), and there is no return (R182); the rule that raises it says what is
written. Only the model's bookkeeping records it, which no rule reads (R177). -/
def State.raise (s : State) (c : Condition) : State :=
  { s with raised := s.raised ++ [c] }

/-- `rsp <- v`: the response of a command (R12, R78). -/
def State.respond (s : State) (v : Word32) : State :=
  { s with rsp := some v }

/-- What an internal operation performed by itself hands back (R107). -/
def State.yield (s : State) (r : Returned) : State :=
  { s with returned := r }

/-- One pulse of `live_tick` (R147). -/
def State.tick (s : State) : State :=
  { s with liveTick := true }

/-- The accumulator reset of `EDGE` step 1: buffer zeroed, `bit_index <- 0`, `start_ts <- t` (R122). -/
def State.clearAccumulator (s : State) (t : Millis) : State :=
  { s with buf := [], bitIndex := 0, startTs := t }

/-- A command that is not accepted stays pending at the host (R152). -/
def State.hold (s : State) (cw : CommandWord) : State :=
  { s with inputs := ⟨false, some (.cmd cw)⟩ :: s.inputs }

/-- The output ports as a step finds them before it does anything: no response, no pulse, no condition. -/
def State.quiet (s : State) : State :=
  { s with rsp := none, liveTick := false, raised := [], returned := .nothing }

/-- An instant is taken from what the outside presents: `rest` is still to come, and the ports are quiet. -/
def State.accept (s : State) (rest : List Instant) : State :=
  { s.quiet with inputs := rest }

/-- `cmd_ready` = 1 iff `phase = IDLE` (R16, R152). -/
def State.cmdReady (s : State) : Bool :=
  s.phase == .idle

/-- `ack_out` mirrors `ack` (R16). -/
def State.ackOut (s : State) : Level :=
  if s.ack then 1 else 0

/-- A host command is accepted only when `phase = IDLE`; otherwise it stays pending and nothing else happens (R152). -/
def whenReady (cw : CommandWord) (s : State) (accepted : Host.Outcome State Fault Refusal) :
    Host.Outcome State Fault Refusal :=
  if s.phase = .idle then accepted else .next (s.hold cw)

/-- The state that resets: every piece of R36 at its value, `x[ch]` drawn anew (R37, R200). What stands outside the block
stays: the strap and the inputs still to come (assumption 20). -/
def State.afterReset (s : State) : State :=
  { s with
    buf := []
    bitIndex := 0
    startTs := 0
    xObj := Config.unspecifiedTemp .obj s.draws
    xEnv := Config.unspecifiedTemp .env s.draws
    updObj := false
    updEnv := false
    armed := false
    ack := true
    phase := .idle
    attempt := 0
    blkBit := 0
    req := 0
    got := 0
    draws := s.draws + 1 }

end Sys2Proof.Machine
end

