-- ==== Sys2Proof/Machine/Operands.lean ====
section
/-! DEFINITION. Machine/Operands.lean: the operands the rules assemble from state and events: byte positions, elapsed
time, and the byte a `SHIFT` produces. -/

namespace Sys2Proof.Machine

/-- The byte index of a bit position: floor division by 8, `v[5:3]` (R74, R108). -/
def byteIndex (position : BitVec 6) : BitVec 3 :=
  position.extractLsb' 3 3

/-- `elapsed = (t - start_ts) mod 2^TS_WIDTH`, unsigned (R15, R188). -/
def elapsed (s : State) (t : Millis) : Nat :=
  (((t.toNat : Int) - (s.startTs.toNat : Int)) % ((2 ^ config.tsWidth : Nat) : Int)).toNat

/-- `elapsed > FRAME_TIMEOUT_MS`, strictly (R122, R188, D10). -/
def timedOut (s : State) (t : Millis) : Bool :=
  decide (config.frameTimeoutMs < elapsed s t)

/-- `bit_index == 40` (R122). -/
def frameComplete (s : State) : Bool :=
  decide (s.bitIndex.toNat = config.frameBits)

/-- The byte after one bit has entered it, at the end `BIT_ORDER` says (R53, R100, D5). -/
def shiftByte (v : Byte) (d : Level) : Byte :=
  match config.bitOrder with
  | .msbFirst => (v <<< 1) ||| d.setWidth 8
  | .lsbFirst => (v >>> 1) ||| (d.setWidth 8 <<< 7)

/-- `SHIFT(i, d)` (R100): read, shift and write one buffer byte; a byte other than 0..4 does not exist (R34). -/
def shiftIn (i : BitVec 3) (d : Level) (s : State) : Except Fault State :=
  if i.toNat < config.frameBytes then
    .ok { s with buf := s.buf.put i.toNat (shiftByte (s.buf.get i.toNat) d) }
  else .error (.noSuchBufferByte i.toNat)

end Sys2Proof.Machine
end

