-- ==== Sys2Proof/Machine/Flags.lean ====
section
/-! DEFINITION. Machine/Flags.lean: everything that is tested or flagged: the frame validator as one operation, which
alone sets an "updated" flag (R28, R67), the getters' read-and-clear, and the stop test of the blocking reader. -/

namespace Sys2Proof.Machine

/-- `VALIDATE` on a frame (R106): the new state and the result mask `r`. Tests in the order checksum, terminator,
address (R180); a VALID frame of a channel writes that entry alone. -/
def validateFrame (f : Frame) (s : State) : State × Mask :=
  if f.checksumOk = false then (s.raise .checksumMismatch, 0)
  else if f.termOk = false then (s.raise .terminatorMismatch, 0)
  else match classifyAddr f.addr with
    | some ch => (s.storeTemp ch (convertBytes f.magHi f.magLo), ch.mask)
    | none => (s.raise .unknownAddress, 0)

/-- `VALIDATE` as the two readers invoke it, on the frame that stands in the buffer (R22, R106). -/
def validateBuffer (s : State) : State × Mask :=
  validateFrame s.frame s

/-- Read and acknowledge: `rsp <- x[ch]; upd[ch] <- 0`, one indivisible read-and-clear, a state-changing step (R64,
R160, R161, R164). -/
def readAndAcknowledge (ch : Channel) (s : State) : State :=
  (s.respond (s.x ch)).clearUpd ch

/-- Peek: the value `zext_32(upd[ch])`, a pure read (R162, R163, R164). -/
def peekFlag (ch : Channel) (s : State) : Word32 :=
  if s.upd ch then 1 else 0

/-- `(req & got) == req` (R143). -/
def requestMet (req got : Mask) : Bool :=
  req &&& got == req

end Sys2Proof.Machine
end

