-- ==== Sys2Proof/Machine/BlockingReader.lean ====
section
/-! DEFINITION. Machine/BlockingReader.lean: the blocking reader: `READ` and the two `POLL` rows (R140, R142, R143). -/

namespace Sys2Proof.Machine

/-- `READ m` (R140). Its response comes in the `POLL` step that ends the read. Inside a conversion window it has no
meaning and is refused (R149). -/
def execRead (m : Mask) (s : State) : Host.Outcome State Fault Refusal :=
  whenReady (commandWord 0x1 m) s <|
    if s.armed then .refused .readWhileArmed
    else .next { s with ack := false, req := m, got := 0, attempt := 0, blkBit := 0, phase := .waitLow }

/-- `POLL c d` in phase `WAIT_LOW` (R142): on a LOW clock the data line is sampled; otherwise the wait goes on. In
another phase there is no such step. -/
def execPollWaitLow (c d : Level) (s : State) : Host.Outcome State Fault Refusal :=
  if s.phase = .waitLow then
    if c = 0 then
      match shiftIn (byteIndex s.blkBit) d s.tick with
      | .ok s' => .next { s' with phase := .waitHigh }
      | .error f => .fault f
    else .next s.tick
  else .next s

/-- The end of a read, on every path: `ack <- 1`, `phase <- IDLE`, response 0 (R143, R151). -/
def finishRead (s : State) : State :=
  { s with ack := true, phase := .idle }.respond 0

/-- The next attempt of a read (R143). -/
def nextAttempt (s : State) : State :=
  { s with attempt := s.attempt + 1, blkBit := 0, phase := .waitLow }

/-- Forty bits are in: validate, gather the result into `got`, then stop if the request is met or this was the last
attempt (R143). `AttemptsExhausted` occurs when it ends unmet (R176). -/
def endAttempt (s : State) : State :=
  let v := validateBuffer s
  let s' := { v.1 with got := v.1.got ||| v.2 }
  if requestMet s'.req s'.got then finishRead s'
  else if s'.attempt.toNat = config.maxAttempts - 1 then finishRead (s'.raise .attemptsExhausted)
  else nextAttempt s'

/-- `POLL c d` in phase `WAIT_HIGH` (R143): on a HIGH clock the sequencer goes to the next bit, or ends the attempt after
the last one; otherwise the wait goes on. `d` is ignored. In another phase there is no such step. -/
def execPollWaitHigh (c _d : Level) (s : State) : Host.Outcome State Fault Refusal :=
  if s.phase = .waitHigh then
    if c = 1 then
      if s.blkBit.toNat < config.frameBits - 1 then
        .next { s.tick with blkBit := s.blkBit + 1, phase := .waitLow }
      else .next (endAttempt s.tick)
    else .next s.tick
  else .next s

end Sys2Proof.Machine
end

