-- ==== Sys2Proof/Machine/ChannelAccess.lean ====
section
/-! DEFINITION. Machine/ChannelAccess.lean: the four commands that read the channel register file (R160 to R163),
accepted whether or not a conversion window is open. -/

namespace Sys2Proof.Machine

/-- `GETO` (R160). -/
def execGetO (s : State) : Host.Outcome State Fault Refusal :=
  whenReady (commandWord 0x4 0) s (.next (readAndAcknowledge .obj s))

/-- `GETE` (R161). -/
def execGetE (s : State) : Host.Outcome State Fault Refusal :=
  whenReady (commandWord 0x4 1) s (.next (readAndAcknowledge .env s))

/-- `PEEKO` (R162): the pure read, its value on the response port. -/
def execPeekO (s : State) : Host.Outcome State Fault Refusal :=
  whenReady (commandWord 0x5 0) s (.next (s.respond (peekFlag .obj s)))

/-- `PEEKE` (R163): the pure read, its value on the response port. -/
def execPeekE (s : State) : Host.Outcome State Fault Refusal :=
  whenReady (commandWord 0x5 1) s (.next (s.respond (peekFlag .env s)))

end Sys2Proof.Machine
end

