-- ==== Sys2Proof/Machine/EventReader.lean ====
section
/-! DEFINITION. Machine/EventReader.lean: the event-driven reader: `START`, `END`, `EDGE` (R120 to R122). -/

namespace Sys2Proof.Machine

/-- `START` (R120). On a block without edge capability it fails, writes nothing and says so in the response (R174). -/
def execStart (s : State) : Host.Outcome State Fault Refusal :=
  whenReady (commandWord 0x2 0) s <| .next <|
    if s.edgeCapable then
      { s with armed := true, bitIndex := 0, ack := false }.respond 1
    else (s.raise .unsupportedInterruptPin).respond 0

/-- `END` (R121): "a no-op if interrupt capability was unavailable", not even `ack` is written. -/
def execEndConv (s : State) : Host.Outcome State Fault Refusal :=
  whenReady (commandWord 0x3 0) s <| .next <|
    if s.edgeCapable then { s with ack := true, armed := false }.respond 0
    else s.respond 0

/-- `EDGE` step 1 (R122): reset the accumulator if the last frame is complete or the frame timed out; only the timeout of
an incomplete frame is an `AcquisitionTimeout` (R175). -/
def edgeRestart (t : Millis) (s : State) : State :=
  if frameComplete s then s.clearAccumulator t
  else if timedOut s t then (s.raise .acquisitionTimeout).clearAccumulator t
  else s

/-- `EDGE` step 3 (R122): count the bit, and decode when the frame is complete; the result mask is discarded (R107). -/
def edgeCount (s : State) : State :=
  let s' := { s with bitIndex := s.bitIndex + 1 }
  if frameComplete s' then (validateBuffer s').1 else s'

/-- `EDGE d t` (R122): the three steps in order, inside one step. While `armed = 0` there is no such step: the edge is
lost and leaves no trace (R31, R128). -/
def execEdge (d : Level) (t : Millis) (s : State) : Host.Outcome State Fault Refusal :=
  if s.armed then
    let s1 := edgeRestart t s
    match shiftIn (byteIndex s1.bitIndex) d s1 with
    | .ok s2 => .next (edgeCount s2)
    | .error f => .fault f
  else .next s

end Sys2Proof.Machine
end

