-- ==== Sys2Proof/Machine/Reset.lean ====
section
/-! DEFINITION. Machine/Reset.lean: `RESET` (R200, R201). -/

namespace Sys2Proof.Machine

/-- `RESET` (R200): "may occur in any state and is never refused"; a `READ` in progress is abandoned without a response
(R201). -/
def execReset (s : State) : Host.Outcome State Fault Refusal :=
  .next s.afterReset

end Sys2Proof.Machine
end

