-- ==== Sys2Proof/Machine/Validator.lean ====
section
/-! DEFINITION. Machine/Validator.lean: the internal operations (R100 to R106), each performed by itself. The readers
perform the same shared operations inside their own steps; no port can ask for one alone (R9, R22). -/

namespace Sys2Proof.Machine

/-- `VALIDATE` (R106) on the frame whose bytes are the operands, which are the five buffer bytes when a reader invokes
it; the result mask is handed back. -/
def execValidate (a b c v e : Byte) (s : State) : Host.Outcome State Fault Refusal :=
  let r := validateFrame ⟨a, b, c, v, e⟩ s
  .next (r.1.yield (.mask r.2))

/-- `OBJ_FRAME` (R80, R106): the frame class of the Object channel, `VALIDATE` on its five bytes. -/
def execObjFrame (b c v : Byte) (s : State) : Host.Outcome State Fault Refusal :=
  let r := validateFrame ⟨config.objectAddress, b, c, v, config.endMarker⟩ s
  .next (r.1.yield (.mask r.2))

/-- `ENV_FRAME` (R80, R106): the frame class of the Environment channel, `VALIDATE` on its five bytes. -/
def execEnvFrame (b c v : Byte) (s : State) : Host.Outcome State Fault Refusal :=
  let r := validateFrame ⟨config.environmentAddress, b, c, v, config.endMarker⟩ s
  .next (r.1.yield (.mask r.2))

/-- `SHIFT(i, d)` (R100). -/
def execShift (i : BitVec 3) (d : Level) (s : State) : Host.Outcome State Fault Refusal :=
  match shiftIn i d s with
  | .ok s' => .next s'
  | .error f => .fault f

/-- `CHECKSUM()` (R101): "Writes nothing. Raises `ChecksumMismatch` when `cs_ok` is false". -/
def execChecksum (s : State) : Host.Outcome State Fault Refusal :=
  let ok := s.frame.checksumOk
  .next ((if ok then s else s.raise .checksumMismatch).yield (.checksumOk ok))

/-- `TERM()` (R102). -/
def execTerminator (s : State) : Host.Outcome State Fault Refusal :=
  let ok := s.frame.termOk
  .next ((if ok then s else s.raise .terminatorMismatch).yield (.termOk ok))

/-- `CLASSIFY()` (R104). -/
def execClassify (s : State) : Host.Outcome State Fault Refusal :=
  let c := classifyAddr s.frame.addr
  .next ((if c.isSome then s else s.raise .unknownAddress).yield (.channelClass c))

/-- `CONVERT(b1, b2)` (R105): writes nothing itself; the result is handed back. -/
def execConvert (b1 b2 : Byte) (s : State) : Host.Outcome State Fault Refusal :=
  .next (s.yield (.temperature (convertBytes b1 b2)))

end Sys2Proof.Machine
end

