-- ==== Sys2Proof/Machine/Dispatch.lean ====
section
/-! DEFINITION. Machine/Dispatch.lean: one arm per operation of the table. -/

namespace Sys2Proof.Machine

def exec (i : Instr) (s : State) : Host.Outcome State Fault Refusal :=
  match i with
  | .read m => Sys2Proof.Machine.execRead m s
  | .start => Sys2Proof.Machine.execStart s
  | .endConv => Sys2Proof.Machine.execEndConv s
  | .getO => Sys2Proof.Machine.execGetO s
  | .getE => Sys2Proof.Machine.execGetE s
  | .peekO => Sys2Proof.Machine.execPeekO s
  | .peekE => Sys2Proof.Machine.execPeekE s
  | .edge d t => Sys2Proof.Machine.execEdge d t s
  | .pollWaitLow c d => Sys2Proof.Machine.execPollWaitLow c d s
  | .pollWaitHigh c d => Sys2Proof.Machine.execPollWaitHigh c d s
  | .validate a b c v e => Sys2Proof.Machine.execValidate a b c v e s
  | .objFrame b c v => Sys2Proof.Machine.execObjFrame b c v s
  | .envFrame b c v => Sys2Proof.Machine.execEnvFrame b c v s
  | .shift j d => Sys2Proof.Machine.execShift j d s
  | .checksum => Sys2Proof.Machine.execChecksum s
  | .terminator => Sys2Proof.Machine.execTerminator s
  | .classify => Sys2Proof.Machine.execClassify s
  | .convert b c => Sys2Proof.Machine.execConvert b c s
  | .reset => Sys2Proof.Machine.execReset s

end Sys2Proof.Machine
end

