-- ==== Sys2Proof/Machine/Fetch.lean ====
section
/-! DEFINITION. Machine/Fetch.lean: which instant the block performs next and the operation it selects. The block has no
instruction fetch (R8, R63): its operations come from its ports, one instant at a time. -/

namespace Sys2Proof.Machine

/-- Whether an instant presents a host command and nothing else: what waits while `cmd_ready = 0` (R152). -/
def presentsCommand (i : Instant) : Bool :=
  match i.rst, i.event with
  | false, some (.cmd _) => true
  | _, _ => false

/-- The next instant that can be performed, and what is still to come. A command that finds `cmd_ready = 0` has no step
and stays where it is; what comes after it goes on (R152). -/
def nextInstant (ready : Bool) : List Instant → Option (Instant × List Instant)
  | [] => none
  | i :: rest =>
    if !ready && presentsCommand i then (nextInstant ready rest).map fun p => (p.1, i :: p.2)
    else some (i, rest)

/-- What the ports ask for. -/
inductive Fetched where
  /-- Nothing to perform: the state is held (R192), or the event makes no step and leaves no trace (R128, R141). -/
  | hold (s : State)
  /-- An operation, and the state it is performed in. -/
  | run (i : Instr) (s : State)
  /-- A reserved command word (R82). -/
  | reserved (cw : CommandWord)
  deriving DecidableEq, Repr

/-- Take the next instant and decode it in the phase the block is in. -/
def fetch (s : State) : Fetched :=
  match nextInstant s.cmdReady s.inputs with
  | none => .hold s.quiet
  | some (i, rest) =>
    match i.code with
    | none => .hold (s.accept rest)
    | some c =>
      match decode s.phase c with
      | .ok ins => .run ins (s.accept rest)
      | .error (.reservedCommand cw) => .reserved cw
      | .error .noStep => .hold (s.accept rest)
      | .error .noEncoding => .hold (s.accept rest)

/-- Present one event before everything still to come. -/
def State.present (s : State) (e : Event) : State :=
  { s with inputs := ⟨false, some e⟩ :: s.inputs }

/-- Present the code's bits where the next step takes its operation from, with what that step needs of the state
(assumption 21). A command needs `phase = IDLE`; an edge needs the open conversion window; a look at the lines needs the
sequencer waiting for LOW; a frame needs to stand whole in the buffer at the last bit of an attempt, with the clock seen
HIGH, the step in which a reader validates it (R22). -/
def State.withCode (s : State) : Code → State
  | .rstPort => { s with inputs := ⟨true, none⟩ :: s.inputs }
  | .event (.cmd cw) => { s with phase := .idle }.present (.cmd cw)
  | .event (.edge e) => { s with phase := .idle, armed := true, ack := false }.present (.edge e)
  | .event (.poll l) => { s with phase := .waitLow, armed := false, ack := false }.present (.poll l)
  | .frame w =>
    { s with
      buf := Memory.ofFrame (Frame.ofWord w)
      blkBit := 39
      phase := .waitHigh
      armed := false
      ack := false }.present (.poll 0b10)
  | .internal => s

end Sys2Proof.Machine
end

