-- ==== Sys2Proof/Machine/Step.lean ====
section
/-! DEFINITION. Machine/Step.lean: one step (R9, R10, R17). -/

namespace Sys2Proof.Machine

/-- One atomic step: what the ports ask for is performed whole before the next step begins (R61). -/
def step (s : State) : Host.Outcome State Fault Refusal :=
  match fetch s with
  | .hold s' => .next s'
  | .run i s' => exec i s'
  | .reserved cw => .refused (.reservedCommand cw)

/-- The bits of one operation, presented where the next step takes its operation from. -/
def State.withFetchWord (s : State) (nbits w : Nat) : State :=
  match codeOfBits nbits w with
  | some c => s.withCode c
  | none => s

end Sys2Proof.Machine
end

