-- ==== Sys2Proof/Safety.lean ====
section
/-! DEFINITION. Safety.lean: the terms in which statements about the block are made: the invariant of R38, what "left
unchanged" means for each group of state, sequences of operations, and the loop of R144. -/

namespace Sys2Proof.Machine

/-- The invariant of R38, with the canonical form of the frame buffer. -/
structure State.Inv (s : State) : Prop where
  canonical : s.buf.wf = true
  bitIndex_le : s.bitIndex.toNat ≤ 40
  attempt_le : s.attempt.toNat ≤ 9
  blkBit_le : s.blkBit.toNat ≤ 39
  reading : s.phase ≠ .idle → s.ack = false ∧ s.armed = false
  window : s.armed = true → s.ack = false ∧ s.edgeCapable = true
  outside : s.armed = false → s.phase = .idle → s.ack = true

/-- Whatever is flagged "updated" is a temperature that `CONVERT` produces (R20, R26, R28). -/
def State.FlaggedConverted (s : State) : Prop :=
  ∀ ch, s.upd ch = true → ∃ b1 b2, s.x ch = convertBytes b1 b2

/-- Every buffer byte reads as before. -/
def SameBuffer (s t : State) : Prop :=
  ∀ a, t.byteAt a = s.byteAt a

/-- The acquisition state of the event-driven path is as before. -/
structure SameAccumulator (s t : State) : Prop where
  bitIndex : t.bitIndex = s.bitIndex
  startTs : t.startTs = s.startTs

/-- One entry of the channel register file is as before. -/
structure SameEntry (ch : Channel) (s t : State) : Prop where
  value : t.x ch = s.x ch
  flag : t.upd ch = s.upd ch

/-- The channel register file is as before. -/
def SameRegisters (s t : State) : Prop :=
  ∀ ch, SameEntry ch s t

/-- The conversion window and the acknowledge line are as before. -/
structure SameWindow (s t : State) : Prop where
  armed : t.armed = s.armed
  ack : t.ack = s.ack

/-- The attempt's bookkeeping is as before. -/
structure SameAttempt (s t : State) : Prop where
  attempt : t.attempt = s.attempt
  req : t.req = s.req
  got : t.got = s.got

/-- The blocking sequencer is as before. -/
structure SameSequencer (s t : State) : Prop where
  phase : t.phase = s.phase
  blkBit : t.blkBit = s.blkBit
  attempts : SameAttempt s t

/-- The strap, the inputs still to come and the count of draws are as before. -/
structure SameOutside (s t : State) : Prop where
  strap : t.edgeCapable = s.edgeCapable
  inputs : t.inputs = s.inputs
  draws : t.draws = s.draws

/-- The record of R20 is as before, every field of it, and so is what stands outside. -/
structure SameBlock (s t : State) : Prop where
  buffer : SameBuffer s t
  accumulator : SameAccumulator s t
  registers : SameRegisters s t
  window : SameWindow s t
  sequencer : SameSequencer s t
  outside : SameOutside s t

/-- The model's output ports are as before. -/
structure SamePorts (s t : State) : Prop where
  rsp : t.rsp = s.rsp
  liveTick : t.liveTick = s.liveTick
  raised : t.raised = s.raised
  returned : t.returned = s.returned

/-- The getter of a channel (R160, R161). -/
def getter : Channel → Instr
  | .obj => .getO
  | .env => .getE

/-- The peek of a channel (R162, R163). -/
def peeker : Channel → Instr
  | .obj => .peekO
  | .env => .peekE

/-- The channel a frame updates: VALID, and the address of that channel (R103, R104, R106). -/
def updates (f : Frame) (ch : Channel) : Prop :=
  f.valid = true ∧ classifyAddr f.addr = some ch

/-- The result mask of `VALIDATE` on a frame (R106). -/
def frameMask (f : Frame) : Mask :=
  if f.valid then
    match classifyAddr f.addr with
    | some .obj => 0b01
    | some .env => 0b10
    | none => 0b00
  else 0b00

/-- The conditions `VALIDATE` meets on a frame, at most one, in the order of R180. -/
def frameConditions (f : Frame) : List Condition :=
  if f.checksumOk = false then [.checksumMismatch]
  else if f.termOk = false then [.terminatorMismatch]
  else if classifyAddr f.addr = none then [.unknownAddress]
  else []

/-- The register file after `VALIDATE` on a frame: the entry of the channel the frame updates holds its temperature with
the flag set, and every other entry is as before (R106). -/
def Validated (f : Frame) (s t : State) : Prop :=
  ∀ ch, (updates f ch → t.x ch = convertBytes f.magHi f.magLo ∧ t.upd ch = true) ∧ (¬updates f ch → SameEntry ch s t)

/-- The instant presents a host command and nothing else. -/
def IsCommand (n : Instant) : Prop :=
  ∃ cw, n = ⟨false, some (.cmd cw)⟩

/-- `n` is the instant the block performs next of those presented, and `rest` is what is still presented after it: the first
of all when the block is ready, and during a read the first that is no command, the commands before it staying (R16,
R152). -/
def PresentsNext (s : State) (n : Instant) (rest : List Instant) : Prop :=
  (s.phase = .idle ∧ s.inputs = n :: rest) ∨
  (s.phase ≠ .idle ∧ ¬IsCommand n ∧ ∃ waiting later, (∀ w ∈ waiting, IsCommand w) ∧
    s.inputs = waiting ++ n :: later ∧ rest = waiting ++ later)

/-- Operations performed one after another, up to the first that does not answer a next state. -/
def execAll : List Instr → State → Host.Outcome State Fault Refusal
  | [], s => .next s
  | i :: is, s =>
    match exec i s with
    | .next t => execAll is t
    | .fault f => .fault f
    | .refused r => .refused r

/-- One look at the lines: the `POLL` row that `phase` selects, and nothing outside a read (R80, R141). -/
def look (o : Level × Level) (s : State) : Host.Outcome State Fault Refusal :=
  match s.phase with
  | .idle => .next s
  | .waitLow => exec (.pollWaitLow o.1 o.2) s
  | .waitHigh => exec (.pollWaitHigh o.1 o.2) s

/-- Looks at the lines, one after another. -/
def lookAll : List (Level × Level) → State → Host.Outcome State Fault Refusal
  | [], s => .next s
  | o :: os, s =>
    match look o s with
    | .next t => lookAll os t
    | .fault f => .fault f
    | .refused r => .refused r

/-- `repeat observe (c, d) until c == 0` (R144): the `d` of the observation that ends the wait, and what is left. -/
def awaitLow : List (Level × Level) → Option (Level × List (Level × Level))
  | [] => none
  | (c, d) :: os => if c = 0 then some (d, os) else awaitLow os

/-- `repeat observe (c, d) until c == 1` (R144). -/
def awaitHigh : List (Level × Level) → Option (List (Level × Level))
  | [] => none
  | (c, _) :: os => if c = 1 then some os else awaitHigh os

/-- The inner loop of R144: `n` bits from bit `k` on; `none` when the observations end first. -/
def acquireBits : Nat → Nat → Memory → List (Level × Level) → Option (Memory × List (Level × Level))
  | 0, _, m, os => some (m, os)
  | n + 1, k, m, os =>
    match awaitLow os with
    | none => none
    | some (d, os1) =>
      match awaitHigh os1 with
      | none => none
      | some os2 => acquireBits n (k + 1) (m.put (k / 8) (shiftByte (m.get (k / 8)) d)) os2

/-- The outer loop of R144: up to `n` attempts, with `got` so far. -/
def attemptLoop : Nat → Mask → Mask → State → List (Level × Level) → Option State
  | 0, _, _, s, _ => some s
  | n + 1, m, got, s, os =>
    match acquireBits 40 0 s.buf os with
    | none => none
    | some (buf, os') =>
      let v := validateBuffer { s with buf := buf }
      if requestMet m (got ||| v.2) then some v.1 else attemptLoop n m (got ||| v.2) v.1 os'

/-- The whole of R144 on given observations: the state at the loop's end, `none` where they end first. -/
def readLoop (m : Mask) (s : State) (os : List (Level × Level)) : Option State :=
  (attemptLoop 10 m 0 { s with ack := false } os).map fun t => { t with ack := true }

end Sys2Proof.Machine
end

