-- ==== Sys2Proof/WellFormed.lean ====
section
/-! DEFINITION. WellFormed.lean: the checks on an operation's operands that its constructor's types do not make. -/

namespace Sys2Proof

/-- Whether a frame is of one of the two frame classes that cause a register write (R80). -/
def Frame.inClass (f : Frame) : Bool :=
  f.valid && (classifyAddr f.addr).isSome

/-- An operation as the table writes it. `SHIFT` names one of the five buffer bytes (R100); the two frame classes carry
the checksum the table's `constraint` asks of them (R80); a frame of one of the classes is written as that class, so that
`VALIDATE` stands for every other 40-bit pattern and each pattern has one spelling (assumption 8). -/
def Instr.wellFormed : Instr → Bool
  | .read _ => true
  | .start => true
  | .endConv => true
  | .getO => true
  | .getE => true
  | .peekO => true
  | .peekE => true
  | .edge _ _ => true
  | .pollWaitLow _ _ => true
  | .pollWaitHigh _ _ => true
  | .validate a b c s e => !(Frame.inClass ⟨a, b, c, s, e⟩)
  | .objFrame b c s => (Frame.mk config.objectAddress b c s config.endMarker).checksumOk
  | .envFrame b c s => (Frame.mk config.environmentAddress b c s config.endMarker).checksumOk
  | .shift i _ => decide (i.toNat < config.frameBytes)
  | .checksum => true
  | .terminator => true
  | .classify => true
  | .convert _ _ => true
  | .reset => true

end Sys2Proof
end

