-- ==== Sys2Proof/Certificates/Slice0/Obligations.lean ====
section
/-! DEFINITION. Certificates/Slice0/Obligations.lean: the statements for the provers. -/

open Sys2Proof Sys2Proof.Machine

section Encoding

/-- R76, R79, R80, R71: decoding the encoding of a well-formed operation, in a phase in which its bits select it, gives
that operation back. The five internal operations have no encoding. -/
def Obligations.DecodeOfEncodeIsTheOperation : Prop :=
  ∀ (ph : Phase) (i : Instr), i.wellFormed = true → i.selectedIn ph = true → encode i ≠ .internal →
    decode ph (encode i) = .ok i

/-- R76, R79, R71: whatever bits decode to an operation, the operation is well formed, is one that those bits select in
that phase, and encodes to those bits: the decoder drops none of them. -/
def Obligations.DecodedOperationEncodesToItsBits : Prop :=
  ∀ (ph : Phase) (c : Code) (i : Instr), decode ph c = .ok i →
    i.wellFormed = true ∧ i.selectedIn ph = true ∧ encode i = c

/-- R82, R76: exactly ten command words are defined, in every phase; every other is rejected as reserved, by its word. -/
def Obligations.TenCommandWordsAreDefined : Prop :=
  ∀ (ph : Phase) (cw : CommandWord),
    ((∃ i, decode ph (.event (.cmd cw)) = .ok i) ↔
      cw ∈ [0x10, 0x11, 0x12, 0x13, 0x20, 0x30, 0x40, 0x41, 0x50, (0x51 : CommandWord)]) ∧
    (cw ∉ [0x10, 0x11, 0x12, 0x13, 0x20, 0x30, 0x40, 0x41, 0x50, (0x51 : CommandWord)] →
      decode ph (.event (.cmd cw)) = .error (.reservedCommand cw))

/-- R76, R79, R71: words written out from the spec's encodings decode to the operations they stand for. -/
def Obligations.SpecWordsDecode : Prop :=
  decode .idle (.event (.cmd 0b00010010)) = .ok (.read 0b10) ∧
  decode .idle (.event (.cmd 0b00100000)) = .ok .start ∧
  decode .idle (.event (.cmd 0b00110000)) = .ok .endConv ∧
  decode .idle (.event (.cmd 0b01000001)) = .ok .getE ∧
  decode .idle (.event (.cmd 0b01010000)) = .ok .peekO ∧
  decode .idle (.event (.edge 0b100000000000000000000001111101000)) = .ok (.edge 1 1000) ∧
  decode .waitLow (.event (.poll 0b01)) = .ok (.pollWaitLow 0 1) ∧
  decode .waitHigh (.event (.poll 0b10)) = .ok (.pollWaitHigh 1 0) ∧
  decode .idle (.frame 0x4C1234920D) = .ok (.objFrame 0x12 0x34 0x92) ∧
  decode .idle (.frame 0x661290080D) = .ok (.envFrame 0x12 0x90 0x08) ∧
  decode .idle (.frame 0x4C1234620D) = .ok (.validate 0x4C 0x12 0x34 0x62 0x0D)

end Encoding

section ChannelAccess

/-- R160, R161: `GETO` and `GETE` complete when the block is ready: the response is the channel's value, the channel's
flag is cleared, and nothing else changes. -/
def Obligations.GettersReadAndAcknowledge : Prop :=
  ∀ (ch : Channel) (s : State), s.phase = .idle →
    ∃ t, exec (getter ch) s = .next t ∧ t.rsp = some (s.x ch) ∧ t.upd ch = false ∧ t.x ch = s.x ch ∧
      (∀ ch', ch' ≠ ch → SameEntry ch' s t) ∧ SameBuffer s t ∧ SameAccumulator s t ∧ SameWindow s t ∧
      SameSequencer s t ∧ SameOutside s t ∧ t.liveTick = s.liveTick ∧ t.raised = s.raised ∧ t.returned = s.returned

/-- R162, R163: `PEEKO` and `PEEKE` complete when the block is ready: the response is the channel's flag, and nothing in
the block changes. -/
def Obligations.PeeksReadTheFlagOnly : Prop :=
  ∀ (ch : Channel) (s : State), s.phase = .idle →
    ∃ t, exec (peeker ch) s = .next t ∧ t.rsp = some (if s.upd ch then 0x00000001 else 0x00000000) ∧ SameBlock s t ∧
      t.liveTick = s.liveTick ∧ t.raised = s.raised ∧ t.returned = s.returned

/-- R165: a second read with no frame between returns the same value with the flag already false. -/
def Obligations.SecondReadReturnsTheSameValue : Prop :=
  ∀ (ch : Channel) (s : State), s.phase = .idle →
    ∃ t u, exec (getter ch) s = .next t ∧ exec (getter ch) t = .next u ∧ t.rsp = some (s.x ch) ∧
      t.upd ch = false ∧ u.rsp = some (s.x ch) ∧ u.upd ch = false

end ChannelAccess

section EventReader

/-- R120, R174: `START` completes when the block is ready. On a capable block it opens the window, zeroes `bit_index`,
drives the line LOW and answers 1, leaving `buf` and `start_ts`; on an incapable one it writes nothing, raises
`UnsupportedInterruptPin` and answers 0. -/
def Obligations.StartOpensTheWindowOrFails : Prop :=
  ∀ s : State, s.phase = .idle →
    (s.edgeCapable = true → ∃ t, exec .start s = .next t ∧ t.armed = true ∧ t.bitIndex = 0 ∧ t.ack = false ∧
      t.rsp = some 0x00000001 ∧ t.startTs = s.startTs ∧ SameBuffer s t ∧ SameRegisters s t ∧ SameSequencer s t ∧
      SameOutside s t ∧ t.liveTick = s.liveTick ∧ t.raised = s.raised ∧ t.returned = s.returned) ∧
    (s.edgeCapable = false → ∃ t, exec .start s = .next t ∧ t.rsp = some 0x00000000 ∧ SameBlock s t ∧
      t.raised = s.raised ++ [.unsupportedInterruptPin] ∧ t.liveTick = s.liveTick ∧ t.returned = s.returned)

/-- R121: `END` completes when the block is ready. On a capable block it drives the line HIGH and closes the window,
whatever `bit_index` is; on an incapable one it writes nothing. It answers 0. That an `EDGE` after it answers the
unchanged state is the model's reading of R128 (log 13). -/
def Obligations.EndClosesTheWindow : Prop :=
  ∀ s : State, s.phase = .idle →
    ∃ t, exec .endConv s = .next t ∧ t.rsp = some 0x00000000 ∧ SameBuffer s t ∧ SameAccumulator s t ∧
      SameRegisters s t ∧ SameSequencer s t ∧ SameOutside s t ∧ t.liveTick = s.liveTick ∧ t.raised = s.raised ∧
      t.returned = s.returned ∧
      (s.edgeCapable = true → t.ack = true ∧ t.armed = false ∧ ∀ d tm, exec (.edge d tm) t = .next t) ∧
      (s.edgeCapable = false → SameWindow s t)

/-- R128 and log 13 (the model's reading): a falling edge while `armed = 0` changes nothing. -/
def Obligations.EdgeOutsideTheWindowIsLost : Prop :=
  ∀ (d : Level) (tm : Millis) (s : State), s.armed = false → exec (.edge d tm) s = .next s

/-- R122, R124: `EDGE d t` completes in an open window. It restarts the accumulator first when the frame is complete or
more than 25 ms have passed since the stamp; then it shifts the bit into the byte of its position, counts it, and on the
40th bit validates the buffer. -/
def Obligations.EdgeRestartsShiftsAndDecodes : Prop :=
  ∀ (d : Level) (tm : Millis) (s : State), s.armed = true → s.buf.wf = true → s.bitIndex.toNat ≤ 40 →
    ∃ (t : State) (restart : Bool) (pos : Nat),
      exec (.edge d tm) s = .next t ∧
      (restart = true ↔ s.bitIndex.toNat = 40 ∨ 25 < (tm - s.startTs).toNat) ∧
      pos = (if restart then 0 else s.bitIndex.toNat) ∧
      t.bitIndex.toNat = pos + 1 ∧
      t.startTs = (if restart then tm else s.startTs) ∧
      (∀ a, t.byteAt a =
        if a = pos / 8 then ((if restart then 0 else s.byteAt a) <<< 1) ||| d.setWidth 8
        else if restart then 0 else s.byteAt a) ∧
      (pos = 39 → Validated t.frame s t) ∧
      (pos ≠ 39 → SameRegisters s t) ∧
      t.raised = s.raised ++ (if restart = true ∧ s.bitIndex.toNat ≠ 40 then [.acquisitionTimeout] else []) ++
        (if pos = 39 then frameConditions t.frame else []) ∧
      SameWindow s t ∧ SameSequencer s t ∧ SameOutside s t ∧ t.rsp = s.rsp ∧ t.liveTick = s.liveTick ∧
      t.returned = s.returned

/-- R130, R127: forty edges that carry a frame's bits in wire order, starting at bit position 0 and none of them more than
25 ms after the stamp then current, leave exactly that frame in the buffer and the register file as one `VALIDATE` of it
leaves it. -/
def Obligations.FortyEdgesDecodeOneFrame : Prop :=
  ∀ (w : BitVec 40) (tm : Nat → Millis) (s : State), s.armed = true → s.buf.wf = true → s.bitIndex.toNat ≤ 40 →
    (((s.bitIndex.toNat = 40 ∨ 25 < (tm 0 - s.startTs).toNat) ∧ ∀ k, k < 40 → (tm k - tm 0).toNat ≤ 25) ∨
      (s.bitIndex = 0 ∧ ∀ k, k < 40 → (tm k - s.startTs).toNat ≤ 25)) →
    ∃ t, execAll ((List.range 40).map fun k => .edge (Frame.wireBit w k) (tm k)) s = .next t ∧
      t.frame = Frame.ofWord w ∧ t.bitIndex.toNat = 40 ∧ Validated (Frame.ofWord w) s t

/-- R62: an `EDGE` that completes a valid frame of a channel, and the getter of that channel, in either order. After the
edge first, the getter returns the new value and the flag is 0; after the getter first, it returned the old value and the
flag is 1; the value kept is the new one both times. -/
def Obligations.GetterAndEdgeInEitherOrder : Prop :=
  ∀ (ch : Channel) (d : Level) (tm : Millis) (s e : State), s.armed = true → s.phase = .idle → s.buf.wf = true →
    s.bitIndex.toNat = 39 → (tm - s.startTs).toNat ≤ 25 → exec (.edge d tm) s = .next e → updates e.frame ch →
    (∃ t, execAll [.edge d tm, getter ch] s = .next t ∧
      t.rsp = some (convertBytes e.frame.magHi e.frame.magLo) ∧
      t.x ch = convertBytes e.frame.magHi e.frame.magLo ∧ t.upd ch = false) ∧
    (∃ t, execAll [getter ch, .edge d tm] s = .next t ∧ t.rsp = some (s.x ch) ∧
      t.x ch = convertBytes e.frame.magHi e.frame.magLo ∧ t.upd ch = true)

end EventReader

section BlockingReader

/-- R140: `READ m` completes when the block is ready and no window is open: the sequencer starts at the first bit of the
first attempt, the line goes LOW, and nothing else changes; no response yet. -/
def Obligations.ReadStartsTheSequencer : Prop :=
  ∀ (m : Mask) (s : State), s.phase = .idle → s.armed = false →
    ∃ t, exec (.read m) s = .next t ∧ t.ack = false ∧ t.req = m ∧ t.got = 0b00 ∧ t.attempt = 0 ∧ t.blkBit = 0 ∧
      t.phase = .waitLow ∧ t.armed = s.armed ∧ SameBuffer s t ∧ SameAccumulator s t ∧ SameRegisters s t ∧
      SameOutside s t ∧ SamePorts s t

/-- R149: `READ` inside a conversion window is refused. -/
def Obligations.ReadInsideTheWindowIsRefused : Prop :=
  ∀ (m : Mask) (s : State), s.phase = .idle → s.armed = true → exec (.read m) s = .refused .readWhileArmed

/-- R152 and log 5 (the model's reading): a host command that finds the block busy is not accepted; the state is as it
was, with the command put back in front of the inputs. -/
def Obligations.CommandsWaitWhileBusy : Prop :=
  ∀ (i : Instr) (cw : CommandWord) (s : State), encode i = .event (.cmd cw) → s.phase ≠ .idle →
    ∃ t, exec i s = .next t ∧ t = { s with inputs := ⟨false, some (.cmd cw)⟩ :: s.inputs }

/-- R142: `POLL c d` in phase `WAIT_LOW` completes: on a LOW clock the bit is shifted into its byte and the phase becomes
`WAIT_HIGH`; on a HIGH clock only `live_tick` pulses. -/
def Obligations.PollWaitLowSamplesOnLow : Prop :=
  ∀ (c d : Level) (s : State), s.phase = .waitLow → s.buf.wf = true → s.blkBit.toNat ≤ 39 →
    ∃ t, exec (.pollWaitLow c d) s = .next t ∧ t.liveTick = true ∧
      (c = 0 → t.phase = .waitHigh ∧ ∀ a, t.byteAt a =
        if a = s.blkBit.toNat / 8 then (s.byteAt a <<< 1) ||| d.setWidth 8 else s.byteAt a) ∧
      (c = 1 → t.phase = .waitLow ∧ SameBuffer s t) ∧
      t.blkBit = s.blkBit ∧ SameAttempt s t ∧ SameAccumulator s t ∧ SameRegisters s t ∧ SameWindow s t ∧
      SameOutside s t ∧ t.rsp = s.rsp ∧ t.raised = s.raised ∧ t.returned = s.returned

/-- R143, R176: `POLL c d` in phase `WAIT_HIGH` completes. On a LOW clock only `live_tick` pulses. On a HIGH clock before
the last bit the sequencer goes to the next bit. On a HIGH clock after the last bit the frame is validated and its mask
gathered, and the read ends, with the line HIGH and the response 0, if the request is met or this was attempt 9, else the
next attempt begins. `d` is ignored. -/
def Obligations.PollWaitHighAdvancesOnHigh : Prop :=
  ∀ (c d : Level) (s : State), s.phase = .waitHigh →
    ∃ t, exec (.pollWaitHigh c d) s = .next t ∧ t.liveTick = true ∧ SameBuffer s t ∧ SameAccumulator s t ∧
      t.armed = s.armed ∧ t.req = s.req ∧ SameOutside s t ∧ t.returned = s.returned ∧
      (c = 0 → SameSequencer s t ∧ SameRegisters s t ∧ t.ack = s.ack ∧ t.rsp = s.rsp ∧ t.raised = s.raised) ∧
      (c = 1 → s.blkBit.toNat < 39 →
        t.blkBit.toNat = s.blkBit.toNat + 1 ∧ t.phase = .waitLow ∧ SameAttempt s t ∧ SameRegisters s t ∧
        t.ack = s.ack ∧ t.rsp = s.rsp ∧ t.raised = s.raised) ∧
      (c = 1 → 39 ≤ s.blkBit.toNat →
        Validated s.frame s t ∧ t.got = s.got ||| frameMask s.frame ∧
        (s.req &&& t.got = s.req ∨ s.attempt = 9 →
          t.ack = true ∧ t.phase = .idle ∧ t.rsp = some 0x00000000 ∧ t.attempt = s.attempt ∧ t.blkBit = s.blkBit) ∧
        (s.req &&& t.got ≠ s.req → s.attempt ≠ 9 →
          t.attempt = s.attempt + 1 ∧ t.blkBit = 0 ∧ t.phase = .waitLow ∧ t.ack = s.ack ∧ t.rsp = s.rsp) ∧
        t.raised = s.raised ++ frameConditions s.frame ++
          (if s.req &&& t.got ≠ s.req ∧ s.attempt = 9 then [.attemptsExhausted] else []))

/-- R141 and log 13 (the model's reading): a `POLL` row in a phase that is not its own changes nothing. -/
def Obligations.PollOutsideItsPhaseChangesNothing : Prop :=
  ∀ (c d : Level) (s : State),
    (s.phase ≠ .waitLow → exec (.pollWaitLow c d) s = .next s) ∧
    (s.phase ≠ .waitHigh → exec (.pollWaitHigh c d) s = .next s)

/-- R146: with an empty mask the first completed attempt ends the read, whatever its frame. -/
def Obligations.EmptyRequestEndsAfterOneAttempt : Prop :=
  ∀ (d : Level) (s : State), s.phase = .waitHigh → s.req = 0 → 39 ≤ s.blkBit.toNat →
    ∃ t, exec (.pollWaitHigh 1 d) s = .next t ∧ t.phase = .idle ∧ t.ack = true ∧ t.rsp = some 0x00000000 ∧
      t.attempt = s.attempt

/-- R148, R211: however many looks show the clock at the level it is stuck at, the sequencer waits: nothing in the block
changes and no response is produced. -/
def Obligations.StuckClockHangsTheRead : Prop :=
  ∀ (os : List (Level × Level)) (s : State),
    ((s.phase = .waitLow ∧ ∀ o ∈ os, o.1 = 1) ∨ (s.phase = .waitHigh ∧ ∀ o ∈ os, o.1 = 0)) →
    ∃ t, lookAll os s = .next t ∧ SameBlock s t ∧ t.rsp = s.rsp ∧ t.raised = s.raised

/-- R144: the sequencer performs exactly the loop. On every sequence of looks, the read has ended after them if and only
if the loop has, and then buffer, register file and line are the loop's; while it has not, the line is LOW. -/
def Obligations.SequencerPerformsTheLoop : Prop :=
  ∀ (m : Mask) (s : State) (os : List (Level × Level)), s.phase = .idle → s.armed = false →
    ∃ r t, exec (.read m) s = .next r ∧ lookAll os r = .next t ∧
      (∀ u, readLoop m s os = some u →
        t.phase = .idle ∧ SameBuffer u t ∧ SameRegisters u t ∧ t.ack = u.ack) ∧
      (readLoop m s os = none → t.phase ≠ .idle ∧ t.ack = false)

/-- R145, R211: under the premise that the clock keeps toggling, a read ends: 400 clock pulses, ten attempts of 40 bits,
are enough from the start of a read, whatever the data. -/
def Obligations.TenAttemptsOfPulsesEndTheRead : Prop :=
  ∀ (ds : List Level) (s : State), ds.length = 400 → s.phase = .waitLow → s.attempt = 0 → s.blkBit = 0 →
    ∃ t, lookAll (ds.flatMap fun d => [(0, d), (1, d)]) s = .next t ∧ t.phase = .idle ∧ t.ack = true

end BlockingReader

section Validator

/-- R100: `SHIFT(i, d)` completes for a byte of the buffer: the byte moves left by one, bit 7 is dropped, `d` enters at
bit 0, and nothing else changes. -/
def Obligations.ShiftMovesOneByteLeft : Prop :=
  ∀ (i : BitVec 3) (d : Level) (s : State), i.toNat ≤ 4 → s.buf.wf = true →
    ∃ t, exec (.shift i d) s = .next t ∧
      (t.byteAt i.toNat).toNat = (2 * (s.byteAt i.toNat).toNat + d.toNat) % 256 ∧
      (∀ a, a ≠ i.toNat → t.byteAt a = s.byteAt a) ∧ SameAccumulator s t ∧ SameRegisters s t ∧ SameWindow s t ∧
      SameSequencer s t ∧ SameOutside s t ∧ SamePorts s t

/-- R34, R50 and log 9 (the model's reading): a buffer byte other than 0 to 4 does not exist, and `SHIFT` into it is a
fault. -/
def Obligations.ShiftOutsideTheBufferFaults : Prop :=
  ∀ (i : BitVec 3) (d : Level) (s : State), 5 ≤ i.toNat → exec (.shift i d) s = .fault (.noSuchBufferByte i.toNat)

/-- R55: a byte that receives eight `SHIFT`s holds exactly those eight bits, the first at bit 7, whatever it held. -/
def Obligations.EightShiftsReplaceTheByte : Prop :=
  ∀ (i : BitVec 3) (v : Byte) (s : State), i.toNat ≤ 4 → s.buf.wf = true →
    ∃ t, execAll ((List.range 8).map fun k => .shift i (v.extractLsb' (7 - k) 1)) s = .next t ∧
      t.byteAt i.toNat = v ∧ ∀ a, a ≠ i.toNat → t.byteAt a = s.byteAt a

/-- R54, R51, R53: after all 40 samples of an acquisition have been shifted in, `buf[k / 8][7 - (k mod 8)] = w[k]`: the
buffer holds the frame, whatever it held before. -/
def Obligations.FortyShiftsFillTheFrame : Prop :=
  ∀ (w : BitVec 40) (s : State), s.buf.wf = true →
    ∃ t, execAll ((List.range 40).map fun k => .shift (BitVec.ofNat 3 (k / 8)) (Frame.wireBit w k)) s = .next t ∧
      (∀ k, k < 40 → (t.byteAt (k / 8)).extractLsb' (7 - k % 8) 1 = Frame.wireBit w k) ∧ t.frame = Frame.ofWord w ∧
      SameRegisters s t

/-- R101, R171: `CHECKSUM()` completes: `cs_ok` is whether byte 3 is the sum of the first three modulo 256; it writes
nothing, and raises `ChecksumMismatch` when the test fails. -/
def Obligations.ChecksumComparesTheSum : Prop :=
  ∀ s : State, ∃ t ok, exec .checksum s = .next t ∧ t.returned = .checksumOk ok ∧
    (ok = true ↔ ((s.byteAt 0).toNat + (s.byteAt 1).toNat + (s.byteAt 2).toNat) % 256 = (s.byteAt 3).toNat) ∧
    t.raised = s.raised ++ (if ok then [] else [.checksumMismatch]) ∧ SameBlock s t ∧ t.rsp = s.rsp ∧
    t.liveTick = s.liveTick

/-- R102, R172: `TERM()` completes: `term_ok` is whether byte 4 is 0x0D; it writes nothing, and raises
`TerminatorMismatch` when the test fails. -/
def Obligations.TermComparesTheTerminator : Prop :=
  ∀ s : State, ∃ t ok, exec .terminator s = .next t ∧ t.returned = .termOk ok ∧ (ok = true ↔ s.byteAt 4 = 0x0D) ∧
    t.raised = s.raised ++ (if ok then [] else [.terminatorMismatch]) ∧ SameBlock s t ∧ t.rsp = s.rsp ∧
    t.liveTick = s.liveTick

/-- R104, R173: `CLASSIFY()` completes: 0x4C is Object, 0x66 Environment, any other address none; it writes nothing, and
raises `UnknownAddress` for none. -/
def Obligations.ClassifyReadsTheAddress : Prop :=
  ∀ s : State, ∃ t c, exec .classify s = .next t ∧ t.returned = .channelClass c ∧
    (c = some .obj ↔ s.byteAt 0 = 0x4C) ∧ (c = some .env ↔ s.byteAt 0 = 0x66) ∧
    t.raised = s.raised ++ (if c = none then [.unknownAddress] else []) ∧ SameBlock s t ∧ t.rsp = s.rsp ∧
    t.liveTick = s.liveTick

/-- R105: `CONVERT(b1, b2)` completes with the binary32 rounding of `(625 * raw12 - 2731500) / 10000` and writes
nothing. -/
def Obligations.ConvertRoundsTheExactValue : Prop :=
  ∀ (b1 b2 : Byte) (s : State), ∃ t, exec (.convert b1 b2) s = .next t ∧
    t.returned = .temperature (rne32 (625 * ((b1.toNat * 256 + b2.toNat : Nat) : Int) - 2731500) 10000) ∧
    SameBlock s t ∧ t.rsp = s.rsp ∧ t.liveTick = s.liveTick ∧ t.raised = s.raised

/-- R105, R12: the result of `CONVERT` is a finite binary32 value, and no finite binary32 value is nearer to the exact
temperature. Both sides are in units of 2^-149 / 10000. -/
def Obligations.ConvertIsTheNearestValue : Prop :=
  ∀ (b1 b2 : Byte) (p : Word32), f32Finite p = true →
    f32Finite (convertBytes b1 b2) = true ∧
    (f32Scaled (convertBytes b1 b2) * 10000 - celsiusNumerator (raw12 b1 b2) * 2 ^ 149).natAbs ≤
      (f32Scaled p * 10000 - celsiusNumerator (raw12 b1 b2) * 2 ^ 149).natAbs

/-- R109: every result of `CONVERT` is a normal number, neither zero nor subnormal nor infinite nor NaN, and it is
negative exactly for magnitudes up to 4370. -/
def Obligations.ConvertIsNormalWithTheRightSign : Prop :=
  ∀ b1 b2 : Byte, 1 ≤ f32Exponent (convertBytes b1 b2) ∧ f32Exponent (convertBytes b1 b2) ≤ 254 ∧
    ((convertBytes b1 b2).msb = true ↔ raw12 b1 b2 ≤ 4370)

/-- R109: `CONVERT` is strictly increasing in the magnitude. -/
def Obligations.ConvertIsStrictlyIncreasing : Prop :=
  ∀ a1 a2 b1 b2 : Byte, raw12 a1 a2 < raw12 b1 b2 →
    f32Scaled (convertBytes a1 a2) < f32Scaled (convertBytes b1 b2)

/-- R109: the smallest and the largest result, and the two nearest zero. -/
def Obligations.ConvertExtremes : Prop :=
  convertBytes 0x00 0x00 = 0xC3889333 ∧ convertBytes 0xFF 0xFF = 0x456EEC9A ∧
  convertBytes 0x11 0x12 = 0xBCCCCCCD ∧ convertBytes 0x11 0x13 = 0x3D19999A

/-- R110: the conversion this hardware does not take agrees with the one it takes for every magnitude outside 2323 to
6418, and differs for every magnitude inside. -/
def Obligations.ChainConversionDiffersExactlyInside : Prop :=
  ∀ raw : Nat, raw < 65536 → (convertChain raw = convertExact raw ↔ ¬(2323 ≤ raw ∧ raw ≤ 6418))

/-- R106, R103, R180: `VALIDATE` completes on every 40-bit pattern: a VALID frame of a channel writes that entry and
returns its mask; any other raises exactly one condition, in order, and writes nothing. The buffer is never modified. -/
def Obligations.ValidateWritesAtMostOneChannel : Prop :=
  ∀ (a b c v e : Byte) (s : State), ∃ t, exec (.validate a b c v e) s = .next t ∧
    Validated ⟨a, b, c, v, e⟩ s t ∧ t.returned = .mask (frameMask ⟨a, b, c, v, e⟩) ∧
    t.raised = s.raised ++ frameConditions ⟨a, b, c, v, e⟩ ∧ SameBuffer s t ∧ SameAccumulator s t ∧ SameWindow s t ∧
    SameSequencer s t ∧ SameOutside s t ∧ t.rsp = s.rsp ∧ t.liveTick = s.liveTick

/-- R111, R103: a frame is VALID if and only if its checksum byte is the sum modulo 256 and its last byte is the
terminator, regardless of its address. -/
def Obligations.FrameIsValidIffSumAndTerminator : Prop :=
  ∀ a b c d e : Byte, (Frame.mk a b c d e).valid = true ↔
    (a.toNat + b.toNat + c.toNat) % 256 = d.toNat ∧ e = 0x0D

/-- R80, R106: the two frame classes complete: with the checksum the table asks of them, each writes its own channel's
entry, returns its mask, raises nothing, and changes nothing else. -/
def Obligations.FrameClassesWriteTheirChannel : Prop :=
  ∀ (b c v : Byte) (s : State),
    ((Instr.objFrame b c v).wellFormed = true → ∃ t, exec (.objFrame b c v) s = .next t ∧
      t.x .obj = convertBytes b c ∧ t.upd .obj = true ∧ SameEntry .env s t ∧ t.returned = .mask 0b01 ∧
      t.raised = s.raised ∧ SameBuffer s t ∧ SameAccumulator s t ∧ SameWindow s t ∧ SameSequencer s t ∧
      SameOutside s t ∧ t.rsp = s.rsp ∧ t.liveTick = s.liveTick) ∧
    ((Instr.envFrame b c v).wellFormed = true → ∃ t, exec (.envFrame b c v) s = .next t ∧
      t.x .env = convertBytes b c ∧ t.upd .env = true ∧ SameEntry .obj s t ∧ t.returned = .mask 0b10 ∧
      t.raised = s.raised ∧ SameBuffer s t ∧ SameAccumulator s t ∧ SameWindow s t ∧ SameSequencer s t ∧
      SameOutside s t ∧ t.rsp = s.rsp ∧ t.liveTick = s.liveTick)

/-- R80, R81, R106: whatever class the decoder reads a frame as, performing it is performing `VALIDATE` on its bytes. -/
def Obligations.DecodedFrameActsAsValidate : Prop :=
  ∀ (w : BitVec 40) (s : State),
    exec (decodeFrame w) s =
      exec (.validate (Frame.ofWord w).addr (Frame.ofWord w).magHi (Frame.ofWord w).magLo (Frame.ofWord w).csum
        (Frame.ofWord w).term) s

end Validator

section Reset

/-- R200, R36, R201: `RESET` completes in every state. Every piece of state the spec gives a reset value has it, and no
response is produced. Nothing is said of `x[ch]`. That the strap and the inputs still to come, waiting commands among
them, stay is the model's reading (log 20). -/
def Obligations.ResetPutsEveryFieldAtItsValue : Prop :=
  ∀ s : State, ∃ t, exec .reset s = .next t ∧ (∀ a, t.byteAt a = 0x00) ∧ t.bitIndex = 0 ∧ t.startTs = 0 ∧
    (∀ ch, t.upd ch = false) ∧ t.armed = false ∧ t.ack = true ∧ t.phase = .idle ∧ t.attempt = 0 ∧ t.blkBit = 0 ∧
    t.req = 0 ∧ t.got = 0 ∧ t.edgeCapable = s.edgeCapable ∧ t.inputs = s.inputs ∧ SamePorts s t

/-- R38: the state right after reset meets the invariant, and flags no temperature. -/
def Obligations.ResetStateMeetsTheInvariants : Prop :=
  State.reset.Inv ∧ State.reset.FlaggedConverted

end Reset

section Steps

/-- R10, R16, R61, R152, with the inputs of log 1, the ports of log 4 and the waiting commands of log 5 (the model's):
the step performs the instant that is next (the first when the block is ready, the first that is no command during a
read): `RESET` where its `rst` is HIGH, otherwise the operation its event decodes to, in the state that differs only in
that the instant is taken from the inputs and the output ports are quiet. -/
def Obligations.StepRunsTheDecodedOperation : Prop :=
  ∀ (s : State) (n : Instant) (rest : List Instant), PresentsNext s n rest →
    (n.rst = true → step s =
      exec .reset { s with inputs := rest, rsp := none, liveTick := false, raised := [], returned := .nothing }) ∧
    (∀ (e : Event) (i : Instr), n.rst = false → n.event = some e → decode s.phase (.event e) = .ok i → step s =
      exec i { s with inputs := rest, rsp := none, liveTick := false, raised := [], returned := .nothing })

/-- R192, R152, with the inputs of log 1 (the model's choice): with nothing presented, or during a read nothing but
commands, the block holds its state and the commands stay: only the output ports go quiet. -/
def Obligations.StepHoldsWithNothingToPerform : Prop :=
  ∀ s : State, (s.phase = .idle ∧ s.inputs = []) ∨ (s.phase ≠ .idle ∧ ∀ w ∈ s.inputs, IsCommand w) →
    ∃ t, step s = .next t ∧ SameBlock s t ∧ t.rsp = none ∧ t.liveTick = false ∧ t.raised = []

/-- R141, R128, R223 and log 13 (the model's reading): an instant that makes no step (no event, a look at the lines while
no read is in progress, a falling edge outside the window) is taken and leaves the whole block as it was. -/
def Obligations.InstantWithoutAStepLeavesTheBlock : Prop :=
  ∀ (s : State) (n : Instant) (rest : List Instant), PresentsNext s n rest → n.rst = false →
    (n.event = none ∨ (s.phase = .idle ∧ ∃ l, n.event = some (.poll l)) ∨
      (s.armed = false ∧ ∃ e, n.event = some (.edge e))) →
    ∃ t, step s = .next t ∧ SameBlock { s with inputs := rest } t ∧ t.rsp = none ∧ t.liveTick = false ∧ t.raised = []

/-- R179: `RESET` simultaneous with anything wins: the other event is not performed. -/
def Obligations.ResetWinsOverAnythingSimultaneous : Prop :=
  ∀ (s : State) (e : Option Event) (rest : List Instant), s.inputs = ⟨true, e⟩ :: rest →
    step s = exec .reset (s.accept rest)

/-- R82, R17: a reserved command word presented to a ready block is refused by its word. -/
def Obligations.ReservedCommandIsRefused : Prop :=
  ∀ (s : State) (cw : CommandWord) (rest : List Instant), s.phase = .idle →
    s.inputs = ⟨false, some (.cmd cw)⟩ :: rest →
    cw ∉ [0x10, 0x11, 0x12, 0x13, 0x20, 0x30, 0x40, 0x41, 0x50, (0x51 : CommandWord)] →
    step s = .refused (.reservedCommand cw)

/-- R17: a step is refused only when the block is ready and the instant presented first is a reserved command word, which
the refusal names, or a `READ` inside a conversion window. -/
def Obligations.StepRefusesOnlyTheTwoCases : Prop :=
  ∀ (s : State) (r : Refusal), step s = .refused r → s.phase = .idle ∧
    ((∃ cw rest, r = .reservedCommand cw ∧ fetch s = .reserved cw ∧ s.inputs = ⟨false, some (.cmd cw)⟩ :: rest ∧
        ∀ ph i, decode ph (.event (.cmd cw)) ≠ .ok i) ∨
      (r = .readWhileArmed ∧ s.armed = true ∧ ∃ m cw rest, s.inputs = ⟨false, some (.cmd cw)⟩ :: rest ∧
        decode s.phase (.event (.cmd cw)) = .ok (.read m) ∧ fetch s = .run (.read m) (s.accept rest)))

/-- R17, R170: there is no fault outcome: no state that meets the invariant steps to a fault. -/
def Obligations.StepNeverFaultsUnderTheInvariant : Prop :=
  ∀ (s : State) (f : Fault), s.Inv → step s ≠ .fault f

/-- R38: every step keeps the invariant, from every state that meets it. -/
def Obligations.StepKeepsTheInvariant : Prop :=
  ∀ s t : State, s.Inv → step s = .next t → t.Inv

/-- R26, R28, R67: every step keeps that whatever is flagged "updated" is a temperature `CONVERT` produced. -/
def Obligations.StepKeepsFlaggedTemperaturesConverted : Prop :=
  ∀ s t : State, s.FlaggedConverted → step s = .next t → t.FlaggedConverted

/-- R32, with the strap in the state (log 3, the model's choice): no step changes it. -/
def Obligations.StepNeverChangesTheStrap : Prop :=
  ∀ s t : State, step s = .next t → t.edgeCapable = s.edgeCapable

/-- R152 and log 5 (the model's reading): while a read is in progress no step accepts a command: those that are
presented stay presented, in their order. -/
def Obligations.CommandsStayPendingDuringARead : Prop :=
  ∀ s t : State, s.phase ≠ .idle → step s = .next t →
    t.inputs.filter presentsCommand = s.inputs.filter presentsCommand

/-- R23, R24, R29, R30, R31, R33, R67: who writes what. A step that changes one of these fields performs one of the
operations the spec lists as its writers. -/
def Obligations.OnlyTheListedOperationsWriteEachField : Prop :=
  ∀ s t : State, step s = .next t →
    (t.bitIndex ≠ s.bitIndex → ∃ i u, fetch s = .run i u ∧ (i = .start ∨ i = .reset ∨ ∃ d tm, i = .edge d tm)) ∧
    (t.startTs ≠ s.startTs → ∃ i u, fetch s = .run i u ∧ (i = .reset ∨ ∃ d tm, i = .edge d tm)) ∧
    (t.buf ≠ s.buf → ∃ i u, fetch s = .run i u ∧
      (i = .reset ∨ (∃ d tm, i = .edge d tm) ∨ ∃ c d, i = .pollWaitLow c d)) ∧
    (t.armed ≠ s.armed → ∃ i u, fetch s = .run i u ∧ (i = .start ∨ i = .endConv ∨ i = .reset)) ∧
    (t.ack ≠ s.ack → ∃ i u, fetch s = .run i u ∧
      (i = .start ∨ i = .endConv ∨ i = .reset ∨ (∃ m, i = .read m) ∨ ∃ c d, i = .pollWaitHigh c d)) ∧
    (t.phase ≠ s.phase → ∃ i u, fetch s = .run i u ∧
      (i = .reset ∨ (∃ m, i = .read m) ∨ (∃ c d, i = .pollWaitLow c d) ∨ ∃ c d, i = .pollWaitHigh c d)) ∧
    (t.attempt ≠ s.attempt → ∃ i u, fetch s = .run i u ∧
      (i = .reset ∨ (∃ m, i = .read m) ∨ ∃ c d, i = .pollWaitHigh c d)) ∧
    (t.blkBit ≠ s.blkBit → ∃ i u, fetch s = .run i u ∧
      (i = .reset ∨ (∃ m, i = .read m) ∨ ∃ c d, i = .pollWaitHigh c d)) ∧
    (t.req ≠ s.req → ∃ i u, fetch s = .run i u ∧ (i = .reset ∨ ∃ m, i = .read m)) ∧
    (t.got ≠ s.got → ∃ i u, fetch s = .run i u ∧
      (i = .reset ∨ (∃ m, i = .read m) ∨ ∃ c d, i = .pollWaitHigh c d))

/-- R26, R28, R67: a step that sets a flag, or writes a value without being `RESET`, has just validated a frame of that
channel: that frame stands in the buffer, and the value is its temperature. -/
def Obligations.OnlyADecodeSetsAFlagOrWritesAValue : Prop :=
  ∀ (s t : State) (ch : Channel), step s = .next t → (∀ u, fetch s ≠ .run .reset u) →
    ((s.upd ch = false ∧ t.upd ch = true) ∨ t.x ch ≠ s.x ch) →
    updates t.frame ch ∧ t.x ch = convertBytes t.frame.magHi t.frame.magLo ∧ t.upd ch = true

/-- R26, R28, R67: a step that clears a flag performs the getter of that channel or `RESET`. -/
def Obligations.OnlyTheGetterOrResetClearsAFlag : Prop :=
  ∀ (s t : State) (ch : Channel), step s = .next t → s.upd ch = true → t.upd ch = false →
    ∃ i u, fetch s = .run i u ∧ (i = getter ch ∨ i = .reset)

/-- R78, with the port fields of log 4 (the model's choice): every accepted command has exactly one response, of the
value the spec gives, in the step that performs it; that of `READ` comes in the `POLL` step that ends the read; no other
step has one. -/
def Obligations.ResponseOfEveryStep : Prop :=
  ∀ s t : State, step s = .next t →
    (∀ i u, fetch s = .run i u → t.rsp =
      match i with
      | .start => some (if s.edgeCapable then 0x00000001 else 0x00000000)
      | .endConv => some 0x00000000
      | .getO => some s.xObj
      | .getE => some s.xEnv
      | .peekO => some (if s.updObj then 0x00000001 else 0x00000000)
      | .peekE => some (if s.updEnv then 0x00000001 else 0x00000000)
      | .pollWaitHigh _ _ => if t.phase = .idle then some 0x00000000 else none
      | _ => none) ∧
    (∀ u, fetch s = .hold u → t.rsp = none)

/-- R147: `live_tick` pulses in every step that performs a `POLL`, and in no other. -/
def Obligations.LiveTickPulsesOncePerPoll : Prop :=
  ∀ s t : State, step s = .next t →
    (t.liveTick = true ↔ ∃ c d u, fetch s = .run (.pollWaitLow c d) u ∨ fetch s = .run (.pollWaitHigh c d) u)

end Steps
end

