-- ==== Sys2Proof/Laws/State.lean ====
section
/-! SUPPORT. Laws/State.lean: one lemma per field for each named update of the state. -/

namespace Sys2Proof.Machine

section Fields

variable (s : State)

@[simp] theorem State.raise_buf (c : Condition) : (s.raise c).buf = s.buf := rfl
@[simp] theorem State.raise_bitIndex (c : Condition) : (s.raise c).bitIndex = s.bitIndex := rfl
@[simp] theorem State.raise_startTs (c : Condition) : (s.raise c).startTs = s.startTs := rfl
@[simp] theorem State.raise_xObj (c : Condition) : (s.raise c).xObj = s.xObj := rfl
@[simp] theorem State.raise_xEnv (c : Condition) : (s.raise c).xEnv = s.xEnv := rfl
@[simp] theorem State.raise_updObj (c : Condition) : (s.raise c).updObj = s.updObj := rfl
@[simp] theorem State.raise_updEnv (c : Condition) : (s.raise c).updEnv = s.updEnv := rfl
@[simp] theorem State.raise_armed (c : Condition) : (s.raise c).armed = s.armed := rfl
@[simp] theorem State.raise_ack (c : Condition) : (s.raise c).ack = s.ack := rfl
@[simp] theorem State.raise_phase (c : Condition) : (s.raise c).phase = s.phase := rfl
@[simp] theorem State.raise_attempt (c : Condition) : (s.raise c).attempt = s.attempt := rfl
@[simp] theorem State.raise_blkBit (c : Condition) : (s.raise c).blkBit = s.blkBit := rfl
@[simp] theorem State.raise_req (c : Condition) : (s.raise c).req = s.req := rfl
@[simp] theorem State.raise_got (c : Condition) : (s.raise c).got = s.got := rfl
@[simp] theorem State.raise_edgeCapable (c : Condition) : (s.raise c).edgeCapable = s.edgeCapable := rfl
@[simp] theorem State.raise_inputs (c : Condition) : (s.raise c).inputs = s.inputs := rfl
@[simp] theorem State.raise_rsp (c : Condition) : (s.raise c).rsp = s.rsp := rfl
@[simp] theorem State.raise_liveTick (c : Condition) : (s.raise c).liveTick = s.liveTick := rfl
@[simp] theorem State.raise_raised (c : Condition) : (s.raise c).raised = s.raised ++ [c] := rfl
@[simp] theorem State.raise_returned (c : Condition) : (s.raise c).returned = s.returned := rfl
@[simp] theorem State.raise_draws (c : Condition) : (s.raise c).draws = s.draws := rfl

@[simp] theorem State.respond_buf (v : Word32) : (s.respond v).buf = s.buf := rfl
@[simp] theorem State.respond_bitIndex (v : Word32) : (s.respond v).bitIndex = s.bitIndex := rfl
@[simp] theorem State.respond_startTs (v : Word32) : (s.respond v).startTs = s.startTs := rfl
@[simp] theorem State.respond_xObj (v : Word32) : (s.respond v).xObj = s.xObj := rfl
@[simp] theorem State.respond_xEnv (v : Word32) : (s.respond v).xEnv = s.xEnv := rfl
@[simp] theorem State.respond_updObj (v : Word32) : (s.respond v).updObj = s.updObj := rfl
@[simp] theorem State.respond_updEnv (v : Word32) : (s.respond v).updEnv = s.updEnv := rfl
@[simp] theorem State.respond_armed (v : Word32) : (s.respond v).armed = s.armed := rfl
@[simp] theorem State.respond_ack (v : Word32) : (s.respond v).ack = s.ack := rfl
@[simp] theorem State.respond_phase (v : Word32) : (s.respond v).phase = s.phase := rfl
@[simp] theorem State.respond_attempt (v : Word32) : (s.respond v).attempt = s.attempt := rfl
@[simp] theorem State.respond_blkBit (v : Word32) : (s.respond v).blkBit = s.blkBit := rfl
@[simp] theorem State.respond_req (v : Word32) : (s.respond v).req = s.req := rfl
@[simp] theorem State.respond_got (v : Word32) : (s.respond v).got = s.got := rfl
@[simp] theorem State.respond_edgeCapable (v : Word32) : (s.respond v).edgeCapable = s.edgeCapable := rfl
@[simp] theorem State.respond_inputs (v : Word32) : (s.respond v).inputs = s.inputs := rfl
@[simp] theorem State.respond_rsp (v : Word32) : (s.respond v).rsp = some v := rfl
@[simp] theorem State.respond_liveTick (v : Word32) : (s.respond v).liveTick = s.liveTick := rfl
@[simp] theorem State.respond_raised (v : Word32) : (s.respond v).raised = s.raised := rfl
@[simp] theorem State.respond_returned (v : Word32) : (s.respond v).returned = s.returned := rfl
@[simp] theorem State.respond_draws (v : Word32) : (s.respond v).draws = s.draws := rfl

@[simp] theorem State.yield_buf (r : Returned) : (s.yield r).buf = s.buf := rfl
@[simp] theorem State.yield_bitIndex (r : Returned) : (s.yield r).bitIndex = s.bitIndex := rfl
@[simp] theorem State.yield_startTs (r : Returned) : (s.yield r).startTs = s.startTs := rfl
@[simp] theorem State.yield_xObj (r : Returned) : (s.yield r).xObj = s.xObj := rfl
@[simp] theorem State.yield_xEnv (r : Returned) : (s.yield r).xEnv = s.xEnv := rfl
@[simp] theorem State.yield_updObj (r : Returned) : (s.yield r).updObj = s.updObj := rfl
@[simp] theorem State.yield_updEnv (r : Returned) : (s.yield r).updEnv = s.updEnv := rfl
@[simp] theorem State.yield_armed (r : Returned) : (s.yield r).armed = s.armed := rfl
@[simp] theorem State.yield_ack (r : Returned) : (s.yield r).ack = s.ack := rfl
@[simp] theorem State.yield_phase (r : Returned) : (s.yield r).phase = s.phase := rfl
@[simp] theorem State.yield_attempt (r : Returned) : (s.yield r).attempt = s.attempt := rfl
@[simp] theorem State.yield_blkBit (r : Returned) : (s.yield r).blkBit = s.blkBit := rfl
@[simp] theorem State.yield_req (r : Returned) : (s.yield r).req = s.req := rfl
@[simp] theorem State.yield_got (r : Returned) : (s.yield r).got = s.got := rfl
@[simp] theorem State.yield_edgeCapable (r : Returned) : (s.yield r).edgeCapable = s.edgeCapable := rfl
@[simp] theorem State.yield_inputs (r : Returned) : (s.yield r).inputs = s.inputs := rfl
@[simp] theorem State.yield_rsp (r : Returned) : (s.yield r).rsp = s.rsp := rfl
@[simp] theorem State.yield_liveTick (r : Returned) : (s.yield r).liveTick = s.liveTick := rfl
@[simp] theorem State.yield_raised (r : Returned) : (s.yield r).raised = s.raised := rfl
@[simp] theorem State.yield_returned (r : Returned) : (s.yield r).returned = r := rfl
@[simp] theorem State.yield_draws (r : Returned) : (s.yield r).draws = s.draws := rfl

@[simp] theorem State.tick_buf : (s.tick).buf = s.buf := rfl
@[simp] theorem State.tick_bitIndex : (s.tick).bitIndex = s.bitIndex := rfl
@[simp] theorem State.tick_startTs : (s.tick).startTs = s.startTs := rfl
@[simp] theorem State.tick_xObj : (s.tick).xObj = s.xObj := rfl
@[simp] theorem State.tick_xEnv : (s.tick).xEnv = s.xEnv := rfl
@[simp] theorem State.tick_updObj : (s.tick).updObj = s.updObj := rfl
@[simp] theorem State.tick_updEnv : (s.tick).updEnv = s.updEnv := rfl
@[simp] theorem State.tick_armed : (s.tick).armed = s.armed := rfl
@[simp] theorem State.tick_ack : (s.tick).ack = s.ack := rfl
@[simp] theorem State.tick_phase : (s.tick).phase = s.phase := rfl
@[simp] theorem State.tick_attempt : (s.tick).attempt = s.attempt := rfl
@[simp] theorem State.tick_blkBit : (s.tick).blkBit = s.blkBit := rfl
@[simp] theorem State.tick_req : (s.tick).req = s.req := rfl
@[simp] theorem State.tick_got : (s.tick).got = s.got := rfl
@[simp] theorem State.tick_edgeCapable : (s.tick).edgeCapable = s.edgeCapable := rfl
@[simp] theorem State.tick_inputs : (s.tick).inputs = s.inputs := rfl
@[simp] theorem State.tick_rsp : (s.tick).rsp = s.rsp := rfl
@[simp] theorem State.tick_liveTick : (s.tick).liveTick = true := rfl
@[simp] theorem State.tick_raised : (s.tick).raised = s.raised := rfl
@[simp] theorem State.tick_returned : (s.tick).returned = s.returned := rfl
@[simp] theorem State.tick_draws : (s.tick).draws = s.draws := rfl

@[simp] theorem State.storeTemp_buf (ch : Channel) (v : Word32) : (s.storeTemp ch v).buf = s.buf := by cases ch <;> rfl
@[simp] theorem State.storeTemp_bitIndex (ch : Channel) (v : Word32) : (s.storeTemp ch v).bitIndex = s.bitIndex := by cases ch <;> rfl
@[simp] theorem State.storeTemp_startTs (ch : Channel) (v : Word32) : (s.storeTemp ch v).startTs = s.startTs := by cases ch <;> rfl
@[simp] theorem State.storeTemp_armed (ch : Channel) (v : Word32) : (s.storeTemp ch v).armed = s.armed := by cases ch <;> rfl
@[simp] theorem State.storeTemp_ack (ch : Channel) (v : Word32) : (s.storeTemp ch v).ack = s.ack := by cases ch <;> rfl
@[simp] theorem State.storeTemp_phase (ch : Channel) (v : Word32) : (s.storeTemp ch v).phase = s.phase := by cases ch <;> rfl
@[simp] theorem State.storeTemp_attempt (ch : Channel) (v : Word32) : (s.storeTemp ch v).attempt = s.attempt := by cases ch <;> rfl
@[simp] theorem State.storeTemp_blkBit (ch : Channel) (v : Word32) : (s.storeTemp ch v).blkBit = s.blkBit := by cases ch <;> rfl
@[simp] theorem State.storeTemp_req (ch : Channel) (v : Word32) : (s.storeTemp ch v).req = s.req := by cases ch <;> rfl
@[simp] theorem State.storeTemp_got (ch : Channel) (v : Word32) : (s.storeTemp ch v).got = s.got := by cases ch <;> rfl
@[simp] theorem State.storeTemp_edgeCapable (ch : Channel) (v : Word32) : (s.storeTemp ch v).edgeCapable = s.edgeCapable := by cases ch <;> rfl
@[simp] theorem State.storeTemp_inputs (ch : Channel) (v : Word32) : (s.storeTemp ch v).inputs = s.inputs := by cases ch <;> rfl
@[simp] theorem State.storeTemp_rsp (ch : Channel) (v : Word32) : (s.storeTemp ch v).rsp = s.rsp := by cases ch <;> rfl
@[simp] theorem State.storeTemp_liveTick (ch : Channel) (v : Word32) : (s.storeTemp ch v).liveTick = s.liveTick := by cases ch <;> rfl
@[simp] theorem State.storeTemp_raised (ch : Channel) (v : Word32) : (s.storeTemp ch v).raised = s.raised := by cases ch <;> rfl
@[simp] theorem State.storeTemp_returned (ch : Channel) (v : Word32) : (s.storeTemp ch v).returned = s.returned := by cases ch <;> rfl
@[simp] theorem State.storeTemp_draws (ch : Channel) (v : Word32) : (s.storeTemp ch v).draws = s.draws := by cases ch <;> rfl

@[simp] theorem State.clearUpd_buf (ch : Channel) : (s.clearUpd ch).buf = s.buf := by cases ch <;> rfl
@[simp] theorem State.clearUpd_bitIndex (ch : Channel) : (s.clearUpd ch).bitIndex = s.bitIndex := by cases ch <;> rfl
@[simp] theorem State.clearUpd_startTs (ch : Channel) : (s.clearUpd ch).startTs = s.startTs := by cases ch <;> rfl
@[simp] theorem State.clearUpd_xObj (ch : Channel) : (s.clearUpd ch).xObj = s.xObj := by cases ch <;> rfl
@[simp] theorem State.clearUpd_xEnv (ch : Channel) : (s.clearUpd ch).xEnv = s.xEnv := by cases ch <;> rfl
@[simp] theorem State.clearUpd_armed (ch : Channel) : (s.clearUpd ch).armed = s.armed := by cases ch <;> rfl
@[simp] theorem State.clearUpd_ack (ch : Channel) : (s.clearUpd ch).ack = s.ack := by cases ch <;> rfl
@[simp] theorem State.clearUpd_phase (ch : Channel) : (s.clearUpd ch).phase = s.phase := by cases ch <;> rfl
@[simp] theorem State.clearUpd_attempt (ch : Channel) : (s.clearUpd ch).attempt = s.attempt := by cases ch <;> rfl
@[simp] theorem State.clearUpd_blkBit (ch : Channel) : (s.clearUpd ch).blkBit = s.blkBit := by cases ch <;> rfl
@[simp] theorem State.clearUpd_req (ch : Channel) : (s.clearUpd ch).req = s.req := by cases ch <;> rfl
@[simp] theorem State.clearUpd_got (ch : Channel) : (s.clearUpd ch).got = s.got := by cases ch <;> rfl
@[simp] theorem State.clearUpd_edgeCapable (ch : Channel) : (s.clearUpd ch).edgeCapable = s.edgeCapable := by cases ch <;> rfl
@[simp] theorem State.clearUpd_inputs (ch : Channel) : (s.clearUpd ch).inputs = s.inputs := by cases ch <;> rfl
@[simp] theorem State.clearUpd_rsp (ch : Channel) : (s.clearUpd ch).rsp = s.rsp := by cases ch <;> rfl
@[simp] theorem State.clearUpd_liveTick (ch : Channel) : (s.clearUpd ch).liveTick = s.liveTick := by cases ch <;> rfl
@[simp] theorem State.clearUpd_raised (ch : Channel) : (s.clearUpd ch).raised = s.raised := by cases ch <;> rfl
@[simp] theorem State.clearUpd_returned (ch : Channel) : (s.clearUpd ch).returned = s.returned := by cases ch <;> rfl
@[simp] theorem State.clearUpd_draws (ch : Channel) : (s.clearUpd ch).draws = s.draws := by cases ch <;> rfl

@[simp] theorem State.clearAccumulator_buf (t : Millis) : (s.clearAccumulator t).buf = [] := rfl
@[simp] theorem State.clearAccumulator_bitIndex (t : Millis) : (s.clearAccumulator t).bitIndex = 0 := rfl
@[simp] theorem State.clearAccumulator_startTs (t : Millis) : (s.clearAccumulator t).startTs = t := rfl
@[simp] theorem State.clearAccumulator_xObj (t : Millis) : (s.clearAccumulator t).xObj = s.xObj := rfl
@[simp] theorem State.clearAccumulator_xEnv (t : Millis) : (s.clearAccumulator t).xEnv = s.xEnv := rfl
@[simp] theorem State.clearAccumulator_updObj (t : Millis) : (s.clearAccumulator t).updObj = s.updObj := rfl
@[simp] theorem State.clearAccumulator_updEnv (t : Millis) : (s.clearAccumulator t).updEnv = s.updEnv := rfl
@[simp] theorem State.clearAccumulator_armed (t : Millis) : (s.clearAccumulator t).armed = s.armed := rfl
@[simp] theorem State.clearAccumulator_ack (t : Millis) : (s.clearAccumulator t).ack = s.ack := rfl
@[simp] theorem State.clearAccumulator_phase (t : Millis) : (s.clearAccumulator t).phase = s.phase := rfl
@[simp] theorem State.clearAccumulator_attempt (t : Millis) : (s.clearAccumulator t).attempt = s.attempt := rfl
@[simp] theorem State.clearAccumulator_blkBit (t : Millis) : (s.clearAccumulator t).blkBit = s.blkBit := rfl
@[simp] theorem State.clearAccumulator_req (t : Millis) : (s.clearAccumulator t).req = s.req := rfl
@[simp] theorem State.clearAccumulator_got (t : Millis) : (s.clearAccumulator t).got = s.got := rfl
@[simp] theorem State.clearAccumulator_edgeCapable (t : Millis) : (s.clearAccumulator t).edgeCapable = s.edgeCapable := rfl
@[simp] theorem State.clearAccumulator_inputs (t : Millis) : (s.clearAccumulator t).inputs = s.inputs := rfl
@[simp] theorem State.clearAccumulator_rsp (t : Millis) : (s.clearAccumulator t).rsp = s.rsp := rfl
@[simp] theorem State.clearAccumulator_liveTick (t : Millis) : (s.clearAccumulator t).liveTick = s.liveTick := rfl
@[simp] theorem State.clearAccumulator_raised (t : Millis) : (s.clearAccumulator t).raised = s.raised := rfl
@[simp] theorem State.clearAccumulator_returned (t : Millis) : (s.clearAccumulator t).returned = s.returned := rfl
@[simp] theorem State.clearAccumulator_draws (t : Millis) : (s.clearAccumulator t).draws = s.draws := rfl

@[simp] theorem State.hold_buf (cw : CommandWord) : (s.hold cw).buf = s.buf := rfl
@[simp] theorem State.hold_bitIndex (cw : CommandWord) : (s.hold cw).bitIndex = s.bitIndex := rfl
@[simp] theorem State.hold_startTs (cw : CommandWord) : (s.hold cw).startTs = s.startTs := rfl
@[simp] theorem State.hold_xObj (cw : CommandWord) : (s.hold cw).xObj = s.xObj := rfl
@[simp] theorem State.hold_xEnv (cw : CommandWord) : (s.hold cw).xEnv = s.xEnv := rfl
@[simp] theorem State.hold_updObj (cw : CommandWord) : (s.hold cw).updObj = s.updObj := rfl
@[simp] theorem State.hold_updEnv (cw : CommandWord) : (s.hold cw).updEnv = s.updEnv := rfl
@[simp] theorem State.hold_armed (cw : CommandWord) : (s.hold cw).armed = s.armed := rfl
@[simp] theorem State.hold_ack (cw : CommandWord) : (s.hold cw).ack = s.ack := rfl
@[simp] theorem State.hold_phase (cw : CommandWord) : (s.hold cw).phase = s.phase := rfl
@[simp] theorem State.hold_attempt (cw : CommandWord) : (s.hold cw).attempt = s.attempt := rfl
@[simp] theorem State.hold_blkBit (cw : CommandWord) : (s.hold cw).blkBit = s.blkBit := rfl
@[simp] theorem State.hold_req (cw : CommandWord) : (s.hold cw).req = s.req := rfl
@[simp] theorem State.hold_got (cw : CommandWord) : (s.hold cw).got = s.got := rfl
@[simp] theorem State.hold_edgeCapable (cw : CommandWord) : (s.hold cw).edgeCapable = s.edgeCapable := rfl
@[simp] theorem State.hold_inputs (cw : CommandWord) : (s.hold cw).inputs = ⟨false, some (.cmd cw)⟩ :: s.inputs := rfl
@[simp] theorem State.hold_rsp (cw : CommandWord) : (s.hold cw).rsp = s.rsp := rfl
@[simp] theorem State.hold_liveTick (cw : CommandWord) : (s.hold cw).liveTick = s.liveTick := rfl
@[simp] theorem State.hold_raised (cw : CommandWord) : (s.hold cw).raised = s.raised := rfl
@[simp] theorem State.hold_returned (cw : CommandWord) : (s.hold cw).returned = s.returned := rfl
@[simp] theorem State.hold_draws (cw : CommandWord) : (s.hold cw).draws = s.draws := rfl

@[simp] theorem State.quiet_buf : (s.quiet).buf = s.buf := rfl
@[simp] theorem State.quiet_bitIndex : (s.quiet).bitIndex = s.bitIndex := rfl
@[simp] theorem State.quiet_startTs : (s.quiet).startTs = s.startTs := rfl
@[simp] theorem State.quiet_xObj : (s.quiet).xObj = s.xObj := rfl
@[simp] theorem State.quiet_xEnv : (s.quiet).xEnv = s.xEnv := rfl
@[simp] theorem State.quiet_updObj : (s.quiet).updObj = s.updObj := rfl
@[simp] theorem State.quiet_updEnv : (s.quiet).updEnv = s.updEnv := rfl
@[simp] theorem State.quiet_armed : (s.quiet).armed = s.armed := rfl
@[simp] theorem State.quiet_ack : (s.quiet).ack = s.ack := rfl
@[simp] theorem State.quiet_phase : (s.quiet).phase = s.phase := rfl
@[simp] theorem State.quiet_attempt : (s.quiet).attempt = s.attempt := rfl
@[simp] theorem State.quiet_blkBit : (s.quiet).blkBit = s.blkBit := rfl
@[simp] theorem State.quiet_req : (s.quiet).req = s.req := rfl
@[simp] theorem State.quiet_got : (s.quiet).got = s.got := rfl
@[simp] theorem State.quiet_edgeCapable : (s.quiet).edgeCapable = s.edgeCapable := rfl
@[simp] theorem State.quiet_inputs : (s.quiet).inputs = s.inputs := rfl
@[simp] theorem State.quiet_rsp : (s.quiet).rsp = none := rfl
@[simp] theorem State.quiet_liveTick : (s.quiet).liveTick = false := rfl
@[simp] theorem State.quiet_raised : (s.quiet).raised = [] := rfl
@[simp] theorem State.quiet_returned : (s.quiet).returned = .nothing := rfl
@[simp] theorem State.quiet_draws : (s.quiet).draws = s.draws := rfl

@[simp] theorem State.accept_buf (rest : List Instant) : (s.accept rest).buf = s.buf := rfl
@[simp] theorem State.accept_bitIndex (rest : List Instant) : (s.accept rest).bitIndex = s.bitIndex := rfl
@[simp] theorem State.accept_startTs (rest : List Instant) : (s.accept rest).startTs = s.startTs := rfl
@[simp] theorem State.accept_xObj (rest : List Instant) : (s.accept rest).xObj = s.xObj := rfl
@[simp] theorem State.accept_xEnv (rest : List Instant) : (s.accept rest).xEnv = s.xEnv := rfl
@[simp] theorem State.accept_updObj (rest : List Instant) : (s.accept rest).updObj = s.updObj := rfl
@[simp] theorem State.accept_updEnv (rest : List Instant) : (s.accept rest).updEnv = s.updEnv := rfl
@[simp] theorem State.accept_armed (rest : List Instant) : (s.accept rest).armed = s.armed := rfl
@[simp] theorem State.accept_ack (rest : List Instant) : (s.accept rest).ack = s.ack := rfl
@[simp] theorem State.accept_phase (rest : List Instant) : (s.accept rest).phase = s.phase := rfl
@[simp] theorem State.accept_attempt (rest : List Instant) : (s.accept rest).attempt = s.attempt := rfl
@[simp] theorem State.accept_blkBit (rest : List Instant) : (s.accept rest).blkBit = s.blkBit := rfl
@[simp] theorem State.accept_req (rest : List Instant) : (s.accept rest).req = s.req := rfl
@[simp] theorem State.accept_got (rest : List Instant) : (s.accept rest).got = s.got := rfl
@[simp] theorem State.accept_edgeCapable (rest : List Instant) : (s.accept rest).edgeCapable = s.edgeCapable := rfl
@[simp] theorem State.accept_inputs (rest : List Instant) : (s.accept rest).inputs = rest := rfl
@[simp] theorem State.accept_rsp (rest : List Instant) : (s.accept rest).rsp = none := rfl
@[simp] theorem State.accept_liveTick (rest : List Instant) : (s.accept rest).liveTick = false := rfl
@[simp] theorem State.accept_raised (rest : List Instant) : (s.accept rest).raised = [] := rfl
@[simp] theorem State.accept_returned (rest : List Instant) : (s.accept rest).returned = .nothing := rfl
@[simp] theorem State.accept_draws (rest : List Instant) : (s.accept rest).draws = s.draws := rfl

end Fields

section Views

variable (s : State)

@[simp] theorem State.storeTemp_x (ch ch' : Channel) (v : Word32) :
    (s.storeTemp ch v).x ch' = if ch' = ch then v else s.x ch' := by cases ch <;> cases ch' <;> rfl
@[simp] theorem State.storeTemp_upd (ch ch' : Channel) (v : Word32) :
    (s.storeTemp ch v).upd ch' = if ch' = ch then true else s.upd ch' := by cases ch <;> cases ch' <;> rfl
@[simp] theorem State.clearUpd_x (ch ch' : Channel) : (s.clearUpd ch).x ch' = s.x ch' := by
  cases ch <;> cases ch' <;> rfl
@[simp] theorem State.clearUpd_upd (ch ch' : Channel) :
    (s.clearUpd ch).upd ch' = if ch' = ch then false else s.upd ch' := by cases ch <;> cases ch' <;> rfl

@[simp] theorem State.raise_x (c : Condition) (ch : Channel) : (s.raise c).x ch = s.x ch := by cases ch <;> rfl
@[simp] theorem State.raise_upd (c : Condition) (ch : Channel) : (s.raise c).upd ch = s.upd ch := by cases ch <;> rfl
@[simp] theorem State.respond_x (v : Word32) (ch : Channel) : (s.respond v).x ch = s.x ch := by cases ch <;> rfl
@[simp] theorem State.respond_upd (v : Word32) (ch : Channel) : (s.respond v).upd ch = s.upd ch := by cases ch <;> rfl
@[simp] theorem State.yield_x (r : Returned) (ch : Channel) : (s.yield r).x ch = s.x ch := by cases ch <;> rfl
@[simp] theorem State.yield_upd (r : Returned) (ch : Channel) : (s.yield r).upd ch = s.upd ch := by cases ch <;> rfl
@[simp] theorem State.tick_x (ch : Channel) : (s.tick).x ch = s.x ch := by cases ch <;> rfl
@[simp] theorem State.tick_upd (ch : Channel) : (s.tick).upd ch = s.upd ch := by cases ch <;> rfl
@[simp] theorem State.clearAccumulator_x (t : Millis) (ch : Channel) : (s.clearAccumulator t).x ch = s.x ch := by cases ch <;> rfl
@[simp] theorem State.clearAccumulator_upd (t : Millis) (ch : Channel) : (s.clearAccumulator t).upd ch = s.upd ch := by cases ch <;> rfl
@[simp] theorem State.hold_x (cw : CommandWord) (ch : Channel) : (s.hold cw).x ch = s.x ch := by cases ch <;> rfl
@[simp] theorem State.hold_upd (cw : CommandWord) (ch : Channel) : (s.hold cw).upd ch = s.upd ch := by cases ch <;> rfl
@[simp] theorem State.quiet_x (ch : Channel) : (s.quiet).x ch = s.x ch := by cases ch <;> rfl
@[simp] theorem State.quiet_upd (ch : Channel) : (s.quiet).upd ch = s.upd ch := by cases ch <;> rfl
@[simp] theorem State.accept_x (rest : List Instant) (ch : Channel) : (s.accept rest).x ch = s.x ch := by cases ch <;> rfl
@[simp] theorem State.accept_upd (rest : List Instant) (ch : Channel) : (s.accept rest).upd ch = s.upd ch := by cases ch <;> rfl
@[simp] theorem State.raise_byteAt (c : Condition) (a : Nat) : (s.raise c).byteAt a = s.byteAt a := rfl
@[simp] theorem State.raise_frame (c : Condition) : (s.raise c).frame = s.frame := rfl
@[simp] theorem State.respond_byteAt (v : Word32) (a : Nat) : (s.respond v).byteAt a = s.byteAt a := rfl
@[simp] theorem State.respond_frame (v : Word32) : (s.respond v).frame = s.frame := rfl
@[simp] theorem State.yield_byteAt (r : Returned) (a : Nat) : (s.yield r).byteAt a = s.byteAt a := rfl
@[simp] theorem State.yield_frame (r : Returned) : (s.yield r).frame = s.frame := rfl
@[simp] theorem State.tick_byteAt (a : Nat) : (s.tick).byteAt a = s.byteAt a := rfl
@[simp] theorem State.tick_frame : (s.tick).frame = s.frame := rfl
@[simp] theorem State.storeTemp_byteAt (ch : Channel) (v : Word32) (a : Nat) : (s.storeTemp ch v).byteAt a = s.byteAt a := by cases ch <;> rfl
@[simp] theorem State.storeTemp_frame (ch : Channel) (v : Word32) : (s.storeTemp ch v).frame = s.frame := by cases ch <;> rfl
@[simp] theorem State.clearUpd_byteAt (ch : Channel) (a : Nat) : (s.clearUpd ch).byteAt a = s.byteAt a := by cases ch <;> rfl
@[simp] theorem State.clearUpd_frame (ch : Channel) : (s.clearUpd ch).frame = s.frame := by cases ch <;> rfl
@[simp] theorem State.hold_byteAt (cw : CommandWord) (a : Nat) : (s.hold cw).byteAt a = s.byteAt a := rfl
@[simp] theorem State.hold_frame (cw : CommandWord) : (s.hold cw).frame = s.frame := rfl
@[simp] theorem State.quiet_byteAt (a : Nat) : (s.quiet).byteAt a = s.byteAt a := rfl
@[simp] theorem State.quiet_frame : (s.quiet).frame = s.frame := rfl
@[simp] theorem State.accept_byteAt (rest : List Instant) (a : Nat) : (s.accept rest).byteAt a = s.byteAt a := rfl
@[simp] theorem State.accept_frame (rest : List Instant) : (s.accept rest).frame = s.frame := rfl

end Views

end Sys2Proof.Machine
end

