-- ==== Sys2Proof/Laws/Memory.lean ====
section
/-! SUPPORT. Laws/Memory.lean: the frame buffer as memory: reading after writing, and the canonical form that every
operation keeps. -/

namespace Sys2Proof.Machine

@[simp] theorem Memory.get_nil (a : Nat) : Memory.get [] a = 0 := rfl

theorem Memory.get_put_other (m : Memory) {a b : Nat} (v : Byte) (h : b ≠ a) :
    (m.put a v).get b = m.get b := by
  induction m with
  | nil =>
    simp only [Memory.put]
    split
    · rfl
    · simp [Memory.get, Ne.symm h, unlistedByte]
  | cons p m ih =>
    obtain ⟨k, w⟩ := p
    simp only [Memory.put]
    split_ifs with h1 h2 h2 h3
    · rfl
    · simp [Memory.get, Ne.symm h]
    · subst h2
      simp [Memory.get, Ne.symm h]
    · subst h2
      simp [Memory.get, Ne.symm h]
    · simp only [Memory.get, ih]

theorem Memory.wfFrom_mono {lo lo' : Nat} (m : Memory) (h : lo' ≤ lo) (hm : m.wfFrom lo = true) :
    m.wfFrom lo' = true := by
  cases m with
  | nil => rfl
  | cons p m =>
    simp only [Memory.wfFrom, Bool.and_eq_true, decide_eq_true_eq] at hm ⊢
    exact ⟨⟨⟨by omega, hm.1.1.2⟩, hm.1.2⟩, hm.2⟩

theorem Memory.get_of_wfFrom_gt {lo a : Nat} (m : Memory) (hm : m.wfFrom lo = true) (h : a < lo) :
    m.get a = unlistedByte := by
  induction m generalizing lo with
  | nil => rfl
  | cons p m ih =>
    obtain ⟨k, w⟩ := p
    simp only [Memory.wfFrom, Bool.and_eq_true, decide_eq_true_eq] at hm
    have hk : k ≠ a := by omega
    simp only [Memory.get, if_neg hk]
    exact ih hm.2 (by omega)

theorem Memory.get_put_same_from {lo : Nat} (m : Memory) (a : Nat) (v : Byte) (hm : m.wfFrom lo = true) :
    (m.put a v).get a = v := by
  induction m generalizing lo with
  | nil =>
    simp only [Memory.put]
    split_ifs with h
    · simp [Memory.get, h]
    · simp [Memory.get]
  | cons p m ih =>
    obtain ⟨k, w⟩ := p
    simp only [Memory.wfFrom, Bool.and_eq_true, decide_eq_true_eq] at hm
    simp only [Memory.put]
    split_ifs with h1 h2 h2 h3
    · have hk : k ≠ a := by omega
      simp only [Memory.get, if_neg hk]
      rw [h2]
      exact Memory.get_of_wfFrom_gt m hm.2 (by omega)
    · simp [Memory.get]
    · subst h2
      rw [h3]
      exact Memory.get_of_wfFrom_gt m hm.2 (by omega)
    · simp [Memory.get]
    · have hk : k ≠ a := fun e => h2 e.symm
      simp only [Memory.get, if_neg hk]
      exact ih hm.2

/-- Reading the byte just written gives the value written. -/
theorem Memory.get_put_same {m : Memory} (a : Nat) (v : Byte) (hm : m.wf = true) : (m.put a v).get a = v :=
  Memory.get_put_same_from m a v hm

/-- Reading after a write, in a canonical buffer. -/
theorem Memory.get_put {m : Memory} (a b : Nat) (v : Byte) (hm : m.wf = true) :
    (m.put a v).get b = if b = a then v else m.get b := by
  split_ifs with h
  · rw [h, Memory.get_put_same a v hm]
  · exact Memory.get_put_other m v h

theorem Memory.put_wfFrom {lo : Nat} (m : Memory) {a : Nat} (v : Byte) (hm : m.wfFrom lo = true) (hlo : lo ≤ a)
    (ha : a < config.frameBytes) : (m.put a v).wfFrom lo = true := by
  induction m generalizing lo with
  | nil =>
    simp only [Memory.put]
    split_ifs with h
    · rfl
    · simp [Memory.wfFrom, hlo, ha, h]
  | cons p m ih =>
    obtain ⟨k, w⟩ := p
    simp only [Memory.wfFrom, Bool.and_eq_true, decide_eq_true_eq] at hm
    obtain ⟨⟨⟨h0, hk⟩, hw⟩, ht⟩ := hm
    simp only [Memory.put]
    split_ifs with h1 h2 h2 h3
    · simp [Memory.wfFrom, h0, hk, hw, ht]
    · have hak : a + 1 ≤ k := h1
      simp [Memory.wfFrom, hlo, ha, h2, hak, hk, hw, ht]
    · exact Memory.wfFrom_mono m (by omega) ht
    · subst h2
      simp [Memory.wfFrom, h0, ha, h3, ht]
    · have h4 : k + 1 ≤ a := by omega
      simp [Memory.wfFrom, h0, hk, hw, ih ht h4]

/-- A write to an index of the buffer keeps the canonical form. -/
theorem Memory.put_wf {m : Memory} {a : Nat} (v : Byte) (hm : m.wf = true) (ha : a < config.frameBytes) :
    (m.put a v).wf = true :=
  Memory.put_wfFrom m v hm (Nat.zero_le a) ha

theorem Memory.nil_wf : Memory.wf [] = true := rfl

theorem Memory.ofFrame_wf (f : Frame) : (Memory.ofFrame f).wf = true := by
  refine Memory.put_wf _ (Memory.put_wf _ (Memory.put_wf _ (Memory.put_wf _ (Memory.put_wf _ rfl ?_) ?_) ?_) ?_) ?_ <;>
    decide

/-- The buffer that holds a frame reads as that frame. -/
theorem Memory.frame_ofFrame (f : Frame) : (Memory.ofFrame f).frame = f := by
  have h0 : (Memory.put [] 0 f.addr).wf = true := Memory.put_wf _ rfl (by decide)
  have h1 := Memory.put_wf (a := 1) f.magHi h0 (by decide)
  have h2 := Memory.put_wf (a := 2) f.magLo h1 (by decide)
  have h3 := Memory.put_wf (a := 3) f.csum h2 (by decide)
  simp [Memory.frame, Memory.ofFrame, Memory.get_put _ _ _ h3, Memory.get_put _ _ _ h2, Memory.get_put _ _ _ h1,
    Memory.get_put _ _ _ h0, Memory.get_put _ _ _ (show Memory.wf [] = true from rfl)]

/-- Every memory operation keeps the canonical form: a write inside the buffer, the clear, and reset. -/
theorem State.reset_buf_wf : State.reset.buf.wf = true := rfl

end Sys2Proof.Machine
end

