-- ==== Sys2Proof/Laws/Ops.lean ====
section
/-! SUPPORT. Laws/Ops.lean: for each shared operation, once, everything it can do. -/

namespace Sys2Proof

@[simp] theorem config_frameBytes : config.frameBytes = 5 := rfl
@[simp] theorem config_frameBits : config.frameBits = 40 := rfl
@[simp] theorem config_maxAttempts : config.maxAttempts = 10 := rfl
@[simp] theorem config_frameTimeoutMs : config.frameTimeoutMs = 25 := rfl
@[simp] theorem config_tsWidth : config.tsWidth = 32 := rfl
@[simp] theorem config_endMarker : config.endMarker = 0x0D := rfl
@[simp] theorem config_objectAddress : config.objectAddress = 0x4C := rfl
@[simp] theorem config_environmentAddress : config.environmentAddress = 0x66 := rfl
@[simp] theorem Channel.mask_obj : Channel.mask .obj = 0b01 := rfl
@[simp] theorem Channel.mask_env : Channel.mask .env = 0b10 := rfl

/-- A time has the width `TS_WIDTH` (R7, R15, R24). -/
theorem millis_width : Millis = BitVec config.tsWidth := rfl

/-- The two addresses differ, as R7 requires, so the order of the two comparisons cannot be observed (R104). -/
theorem addresses_differ : config.objectAddress ≠ config.environmentAddress := by decide

/-- `sum8` is the sum modulo 256 (R75, R101). -/
theorem sum8_toNat (b0 b1 b2 : Byte) : (sum8 b0 b1 b2).toNat = (b0.toNat + b1.toNat + b2.toNat) % 256 := by
  simp only [sum8, BitVec.toNat_setWidth, BitVec.toNat_add]
  have h0 := b0.isLt
  have h1 := b1.isLt
  have h2 := b2.isLt
  omega

theorem Frame.checksumOk_iff (f : Frame) :
    f.checksumOk = true ↔ (f.addr.toNat + f.magHi.toNat + f.magLo.toNat) % 256 = f.csum.toNat := by
  rw [Frame.checksumOk, beq_iff_eq, ← sum8_toNat]
  exact ⟨fun h => by rw [h], fun h => BitVec.eq_of_toNat_eq h⟩

theorem Frame.termOk_iff (f : Frame) : f.termOk = true ↔ f.term = 0x0D := by
  simp [Frame.termOk]

/-- The exact numerator of R105. -/
theorem celsiusNumerator_eq (raw : Nat) : celsiusNumerator raw = 625 * (raw : Int) - 2731500 := by
  simp [celsiusNumerator, config]

/-- This hardware converts with one rounding of the exact value (R105). -/
theorem convertBytes_eq (b1 b2 : Byte) : convertBytes b1 b2 = rne32 (celsiusNumerator (raw12 b1 b2)) 10000 := rfl

namespace Machine

/-- The byte index of a position is its quotient by 8 (R74). -/
theorem byteIndex_toNat (p : BitVec 6) : (byteIndex p).toNat = p.toNat / 8 := by
  simp only [byteIndex, BitVec.extractLsb'_toNat]
  have h := p.isLt
  rw [Nat.shiftRight_eq_div_pow]
  omega

/-- `SHIFT` puts the new bit at bit 0 and drops bit 7 (R100). -/
theorem shiftByte_eq (v : Byte) (d : Level) : shiftByte v d = (v <<< 1) ||| d.setWidth 8 := rfl

/-- Everything `SHIFT` can do: one buffer byte written, or the fault outside the buffer. -/
theorem shiftIn_cases (i : BitVec 3) (d : Level) (s : State) :
    (i.toNat < 5 ∧
      shiftIn i d s = .ok { s with buf := s.buf.put i.toNat (shiftByte (s.buf.get i.toNat) d) }) ∨
    (5 ≤ i.toNat ∧ shiftIn i d s = .error (.noSuchBufferByte i.toNat)) := by
  unfold shiftIn
  split_ifs with h
  · exact .inl ⟨h, rfl⟩
  · exact .inr ⟨Nat.le_of_not_lt h, rfl⟩

/-- Everything `VALIDATE` can do: one condition and nothing else, or one entry written (R106). -/
theorem validateFrame_cases (f : Frame) (s : State) :
    (f.checksumOk = false ∧ validateFrame f s = (s.raise .checksumMismatch, 0)) ∨
    (f.checksumOk = true ∧ f.termOk = false ∧ validateFrame f s = (s.raise .terminatorMismatch, 0)) ∨
    (f.valid = true ∧ classifyAddr f.addr = none ∧ validateFrame f s = (s.raise .unknownAddress, 0)) ∨
    ∃ ch, f.valid = true ∧ classifyAddr f.addr = some ch ∧
      validateFrame f s = (s.storeTemp ch (convertBytes f.magHi f.magLo), ch.mask) := by
  unfold validateFrame Frame.valid
  cases hc : f.checksumOk
  · exact .inl ⟨rfl, by simp⟩
  · cases ht : f.termOk
    · exact .inr (.inl ⟨rfl, rfl, by simp⟩)
    · cases ha : classifyAddr f.addr with
      | none => exact .inr (.inr (.inl ⟨by simp, rfl, by simp⟩))
      | some ch => exact .inr (.inr (.inr ⟨ch, by simp, rfl, by simp⟩))

/-- What `VALIDATE` never writes: everything but the register file and the record of conditions. -/
theorem validateFrame_frame (f : Frame) (s : State) :
    ∃ xo xe uo ue r, (validateFrame f s).1 =
      { s with xObj := xo, xEnv := xe, updObj := uo, updEnv := ue, raised := r } := by
  obtain ⟨_, h⟩ | ⟨_, _, h⟩ | ⟨_, _, h⟩ | ⟨ch, _, _, h⟩ := validateFrame_cases f s
  · exact ⟨_, _, _, _, _, by rw [h]; rfl⟩
  · exact ⟨_, _, _, _, _, by rw [h]; rfl⟩
  · exact ⟨_, _, _, _, _, by rw [h]; rfl⟩
  · cases ch
    · exact ⟨convertBytes f.magHi f.magLo, s.xEnv, true, s.updEnv, s.raised, by rw [h]; rfl⟩
    · exact ⟨s.xObj, convertBytes f.magHi f.magLo, s.updObj, true, s.raised, by rw [h]; rfl⟩

/-- A command is accepted when the block is ready, and otherwise put back (R152). -/
theorem whenReady_cases (cw : CommandWord) (s : State) (o : Host.Outcome State Fault Refusal) :
    (s.phase = .idle ∧ whenReady cw s o = o) ∨ (s.phase ≠ .idle ∧ whenReady cw s o = .next (s.hold cw)) := by
  unfold whenReady
  split_ifs with h
  · exact .inl ⟨h, rfl⟩
  · exact .inr ⟨h, rfl⟩

theorem frameComplete_iff {s : State} : frameComplete s = true ↔ s.bitIndex.toNat = 40 :=
  decide_eq_true_iff

/-- The elapsed time is the difference at the width of a time, one wrap of `now_ms` between stamp and sample unseen
(R188). -/
theorem elapsed_eq (s : State) (t : Millis) : elapsed s t = (t - s.startTs).toNat := by
  have ht := t.isLt
  have hs := s.startTs.isLt
  rw [elapsed, config_tsWidth, BitVec.toNat_sub]
  omega

/-- The timeout is strict and modulo 2^32 (R188). -/
theorem timedOut_iff {s : State} {t : Millis} : timedOut s t = true ↔ 25 < (t - s.startTs).toNat := by
  rw [timedOut, decide_eq_true_iff, elapsed_eq, config_frameTimeoutMs]

/-- Everything `EDGE` step 1 can do (R122). -/
theorem edgeRestart_cases (t : Millis) (s : State) :
    (s.bitIndex.toNat = 40 ∧ edgeRestart t s = s.clearAccumulator t) ∨
    (s.bitIndex.toNat ≠ 40 ∧ 25 < (t - s.startTs).toNat ∧
      edgeRestart t s = (s.raise .acquisitionTimeout).clearAccumulator t) ∨
    (s.bitIndex.toNat ≠ 40 ∧ (t - s.startTs).toNat ≤ 25 ∧ edgeRestart t s = s) := by
  unfold edgeRestart
  by_cases h1 : frameComplete s = true
  · exact .inl ⟨frameComplete_iff.mp h1, if_pos h1⟩
  · have h1' : s.bitIndex.toNat ≠ 40 := fun h => h1 (frameComplete_iff.mpr h)
    rw [if_neg h1]
    by_cases h2 : timedOut s t = true
    · exact .inr (.inl ⟨h1', timedOut_iff.mp h2, if_pos h2⟩)
    · exact .inr (.inr ⟨h1', Nat.le_of_not_lt fun h => h2 (timedOut_iff.mpr h), if_neg h2⟩)

/-- Everything `EDGE` step 3 can do (R122). -/
theorem edgeCount_cases (s : State) :
    ((s.bitIndex + 1).toNat = 40 ∧
      edgeCount s = (validateFrame s.frame { s with bitIndex := s.bitIndex + 1 }).1) ∨
    ((s.bitIndex + 1).toNat ≠ 40 ∧ edgeCount s = { s with bitIndex := s.bitIndex + 1 }) := by
  unfold edgeCount
  by_cases h : frameComplete { s with bitIndex := s.bitIndex + 1 } = true
  · exact .inl ⟨frameComplete_iff.mp h, if_pos h⟩
  · exact .inr ⟨fun e => h (frameComplete_iff.mpr e), if_neg h⟩

/-- Everything the end of an attempt can do (R143, R176). -/
theorem endAttempt_cases (s : State) :
    ∃ u r, validateFrame s.frame s = (u, r) ∧
      ((requestMet u.req (u.got ||| r) = true ∧ endAttempt s = finishRead { u with got := u.got ||| r }) ∨
       (requestMet u.req (u.got ||| r) = false ∧ u.attempt.toNat = 9 ∧
          endAttempt s = finishRead ({ u with got := u.got ||| r }.raise .attemptsExhausted)) ∨
       (requestMet u.req (u.got ||| r) = false ∧ u.attempt.toNat ≠ 9 ∧
          endAttempt s = nextAttempt { u with got := u.got ||| r })) := by
  rcases hv : validateFrame s.frame s with ⟨u, r⟩
  refine ⟨u, r, rfl, ?_⟩
  unfold endAttempt validateBuffer
  rw [hv]
  by_cases h1 : requestMet u.req (u.got ||| r) = true
  · exact .inl ⟨h1, if_pos h1⟩
  · have h1' : requestMet u.req (u.got ||| r) = false := Bool.eq_false_iff.mpr h1
    by_cases h2 : u.attempt.toNat = 9
    · exact .inr (.inl ⟨h1', h2, (if_neg h1).trans (if_pos h2)⟩)
    · exact .inr (.inr ⟨h1', h2, (if_neg h1).trans (if_neg h2)⟩)

/-- Everything the getters' operation does: one response, one flag cleared (R64, R160). -/
theorem readAndAcknowledge_eq (ch : Channel) (s : State) :
    readAndAcknowledge ch s = (s.respond (s.x ch)).clearUpd ch := rfl

/-- Everything a peek reads: the flag, as a response word (R162). -/
theorem peekFlag_eq (ch : Channel) (s : State) : peekFlag ch s = if s.upd ch then 1 else 0 := rfl

end Machine

end Sys2Proof
end

