-- ==== Sys2Proof/Laws/Step.lean ====
section
/-! SUPPORT. Laws/Step.lean: once, everything a fetch and a step can do. -/

namespace Sys2Proof.Machine

@[simp] theorem State.cmdReady_iff (s : State) : s.cmdReady = true ↔ s.phase = .idle := by
  unfold State.cmdReady
  cases s.phase <;> decide

/-- When the block is ready the next instant is the first. -/
theorem nextInstant_ready (l : List Instant) (n : Instant) (rest : List Instant)
    (h : nextInstant true l = some (n, rest)) : l = n :: rest := by
  cases l with
  | nil => cases h
  | cons i l =>
    simp only [nextInstant, Bool.not_true, Bool.false_and, Bool.false_eq_true, if_false, Option.some.injEq,
      Prod.mk.injEq] at h
    rw [h.1, h.2]

/-- While the block is busy the next instant is one that presents no command, and taking it leaves the commands that wait
where they are, in their order (R152). -/
theorem nextInstant_busy (l : List Instant) (n : Instant) (rest : List Instant)
    (h : nextInstant false l = some (n, rest)) :
    presentsCommand n = false ∧ rest.filter presentsCommand = l.filter presentsCommand := by
  induction l generalizing n rest with
  | nil => cases h
  | cons i l ih =>
    simp only [nextInstant, Bool.not_false, Bool.true_and] at h
    split_ifs at h with hi
    · obtain ⟨⟨n', r'⟩, hp, he⟩ := Option.map_eq_some_iff.mp h
      simp only [Prod.mk.injEq] at he
      obtain ⟨rfl, rfl⟩ := he
      have := ih _ _ hp
      exact ⟨this.1, by simp [hi, this.2]⟩
    · simp only [Option.some.injEq, Prod.mk.injEq] at h
      obtain ⟨rfl, rfl⟩ := h
      exact ⟨by simpa using hi, by simp [hi]⟩

theorem presentsCommand_iff (n : Instant) : presentsCommand n = true ↔ IsCommand n := by
  obtain ⟨_ | _, _ | _ | _ | _⟩ := n <;> simp [presentsCommand, IsCommand]

/-- Commands that wait are passed over and stay where they are (R152). -/
theorem nextInstant_append (waiting l : List Instant) (h : ∀ w ∈ waiting, IsCommand w) :
    nextInstant false (waiting ++ l) = (nextInstant false l).map fun p => (p.1, waiting ++ p.2) := by
  induction waiting with
  | nil => simp
  | cons w ws ih =>
    have hw := (presentsCommand_iff w).mpr (h w List.mem_cons_self)
    simp [nextInstant, hw, ih fun v hv => h v (List.mem_cons_of_mem _ hv), Function.comp_def]

/-- The instant that is next is the one a step takes, and what is left is what it leaves. -/
theorem nextInstant_of_presentsNext {s : State} {n : Instant} {rest : List Instant} (h : PresentsNext s n rest) :
    nextInstant s.cmdReady s.inputs = some (n, rest) := by
  obtain ⟨hp, hi⟩ | ⟨hp, hn, waiting, later, hw, hi, rfl⟩ := h
  · rw [(State.cmdReady_iff s).mpr hp, hi]
    rfl
  · rw [Bool.eq_false_iff.mpr fun hr => hp ((State.cmdReady_iff s).mp hr), hi, nextInstant_append _ _ hw]
    simp [nextInstant, Bool.eq_false_iff.mpr fun hc => hn ((presentsCommand_iff n).mp hc)]

/-- There is nothing to take exactly when nothing is presented, or during a read nothing but commands. -/
theorem nextInstant_none_iff (b : Bool) (l : List Instant) :
    nextInstant b l = none ↔ l = [] ∨ (b = false ∧ ∀ w ∈ l, IsCommand w) := by
  induction l with
  | nil => simp [nextInstant]
  | cons i l ih =>
    cases b <;> by_cases hi : presentsCommand i = true <;>
      simp_all [nextInstant, ← presentsCommand_iff]

/-- The next instant is one of those presented. -/
theorem nextInstant_mem (b : Bool) (l : List Instant) (n : Instant) (rest : List Instant)
    (h : nextInstant b l = some (n, rest)) : n ∈ l := by
  induction l generalizing n rest with
  | nil => cases h
  | cons i l ih =>
    simp only [nextInstant] at h
    split_ifs at h
    · obtain ⟨⟨n', r'⟩, hp, he⟩ := Option.map_eq_some_iff.mp h
      simp only [Prod.mk.injEq] at he
      obtain ⟨rfl, rfl⟩ := he
      exact List.mem_cons_of_mem _ (ih _ _ hp)
    · simp only [Option.some.injEq, Prod.mk.injEq] at h
      exact h.1 ▸ List.mem_cons_self

/-- Everything a fetch can do: hold the state with nothing to perform, take an instant that makes no step, run the
operation an instant selects, or find a reserved command word. -/
theorem fetch_cases (s : State) :
    (nextInstant s.cmdReady s.inputs = none ∧ fetch s = .hold s.quiet) ∨
    ∃ n rest, nextInstant s.cmdReady s.inputs = some (n, rest) ∧
      ((fetch s = .hold (s.accept rest)) ∨
       (∃ c i, n.code = some c ∧ decode s.phase c = .ok i ∧ fetch s = .run i (s.accept rest)) ∨
       (∃ cw, n = ⟨false, some (.cmd cw)⟩ ∧ decodeCommand cw = .error (.reservedCommand cw) ∧
          fetch s = .reserved cw)) := by
  unfold fetch
  cases hn : nextInstant s.cmdReady s.inputs with
  | none => exact .inl ⟨rfl, rfl⟩
  | some p =>
    obtain ⟨n, rest⟩ := p
    refine .inr ⟨n, rest, rfl, ?_⟩
    cases hc : n.code with
    | none => exact .inl (by simp [hc])
    | some c =>
      cases hd : decode s.phase c with
      | ok i => exact .inr (.inl ⟨c, i, rfl, hd, by simp [hc, hd]⟩)
      | error e =>
        cases e with
        | noStep => exact .inl (by simp [hc, hd])
        | noEncoding => exact .inl (by simp [hc, hd])
        | reservedCommand cw =>
          refine .inr (.inr ⟨cw, ?_, ?_, by simp [hc, hd]⟩)
          all_goals
            obtain ⟨r, e⟩ := n
            cases r with
            | true => simp only [Instant.code] at hc; cases hc; cases hd
            | false =>
              cases e with
              | none => cases hc
              | some e =>
                cases hc
                cases e with
                | edge e => cases hd
                | poll l => simp only [decode, decodePoll] at hd; cases hp : s.phase <;> simp [hp] at hd
                | cmd w =>
                  have hw : w = cw := by
                    simp only [decode, decodeCommand] at hd
                    split_ifs at hd <;> simpa using hd
                  subst hw
                  first | rfl | exact hd

/-- The operation a step runs comes from a port: a command when the block is ready, an edge, the `POLL` row of the phase,
or `RESET`. -/
theorem fetch_run_cases {s u : State} {i : Instr} (h : fetch s = .run i u) :
    (∃ rest, u = s.accept rest) ∧
    ((s.phase = .idle ∧ ((∃ m, i = .read m) ∨ i = .start ∨ i = .endConv ∨ i = .getO ∨ i = .getE ∨ i = .peekO ∨
        i = .peekE)) ∨
      (∃ d tm, i = .edge d tm) ∨ (s.phase = .waitLow ∧ ∃ c d, i = .pollWaitLow c d) ∨
      (s.phase = .waitHigh ∧ ∃ c d, i = .pollWaitHigh c d) ∨ i = .reset) := by
  obtain ⟨_, h'⟩ | ⟨n, rest, hn, h' | ⟨c, j, hc, hd, h'⟩ | ⟨_, _, _, h'⟩⟩ := fetch_cases s
  · rw [h'] at h; cases h
  · rw [h'] at h; cases h
  · rw [h'] at h
    cases h
    refine ⟨⟨rest, rfl⟩, ?_⟩
    obtain ⟨r, e⟩ := n
    cases r with
    | true => simp only [Instant.code] at hc; cases hc; cases hd; simp
    | false =>
      cases e with
      | none => cases hc
      | some e =>
        cases hc
        cases e with
        | edge e => cases hd; exact .inr (.inl ⟨_, _, rfl⟩)
        | poll l =>
          simp only [decode, decodePoll] at hd
          cases hp : s.phase <;> simp only [hp] at hd <;> cases hd <;> simp
        | cmd w =>
          have hr : s.phase = .idle := by
            rw [← State.cmdReady_iff]
            cases hb : s.cmdReady
            · rw [hb] at hn
              exact absurd (nextInstant_busy _ _ _ hn).1 (by simp [presentsCommand])
            · rfl
          refine .inl ⟨hr, ?_⟩
          simp only [decode, decodeCommand] at hd
          split_ifs at hd <;> cases hd <;> simp
  · rw [h'] at h; cases h

/-- A step that answers a next state holds, or takes an instant that makes no step, or runs the operation fetched. -/
theorem step_next_cases {s t : State} (h : step s = .next t) :
    (fetch s = .hold t ∧ (t = s.quiet ∨ ∃ rest, t = s.accept rest)) ∨
    ∃ i u, fetch s = .run i u ∧ exec i u = .next t := by
  unfold step at h
  obtain ⟨_, h'⟩ | ⟨n, rest, _, h' | ⟨c, i, _, _, h'⟩ | ⟨_, _, _, h'⟩⟩ := fetch_cases s
  · rw [h'] at h; cases h; exact .inl ⟨h', .inl rfl⟩
  · rw [h'] at h; cases h; exact .inl ⟨h', .inr ⟨rest, rfl⟩⟩
  · rw [h'] at h; exact .inr ⟨i, _, h', h⟩
  · rw [h'] at h; cases h

/-- A refusal of a step is that of a reserved command word or that of the operation fetched. -/
theorem step_refused_cases {s : State} {r : Refusal} (h : step s = .refused r) :
    (∃ cw, fetch s = .reserved cw ∧ r = .reservedCommand cw) ∨
    ∃ i u, fetch s = .run i u ∧ exec i u = .refused r := by
  unfold step at h
  cases hf : fetch s with
  | hold u => rw [hf] at h; cases h
  | run i u => rw [hf] at h; exact .inr ⟨i, u, rfl, h⟩
  | reserved cw => rw [hf] at h; cases h; exact .inl ⟨cw, rfl, rfl⟩

/-- A fault of a step is one of the operation fetched. -/
theorem step_fault_cases {s : State} {f : Fault} (h : step s = .fault f) :
    ∃ i u, fetch s = .run i u ∧ exec i u = .fault f := by
  unfold step at h
  cases hf : fetch s with
  | hold u => rw [hf] at h; cases h
  | run i u => rw [hf] at h; exact ⟨i, u, rfl, h⟩
  | reserved cw => rw [hf] at h; cases h

end Sys2Proof.Machine
end

