-- ==== Sys2Proof/Laws/Meanings.lean ====
section
/-! SUPPORT. Laws/Meanings.lean: once, what each meaning has done when it answers a next state, and what `VALIDATE` leaves. -/

namespace Sys2Proof.Machine

/-- The register file after `VALIDATE` (R106). -/
theorem validateFrame_validated (f : Frame) (s : State) : Validated f s (validateFrame f s).1 := by
  intro ch
  obtain ⟨hc, h⟩ | ⟨hc, ht, h⟩ | ⟨hv, hn, h⟩ | ⟨c, hv, hs, h⟩ := validateFrame_cases f s <;> rw [h]
  · exact ⟨fun hu => by simp [updates, Frame.valid, hc] at hu, fun _ => ⟨by simp, by simp⟩⟩
  · exact ⟨fun hu => by simp [updates, Frame.valid, hc, ht] at hu, fun _ => ⟨by simp, by simp⟩⟩
  · exact ⟨fun hu => by simp [updates, hv, hn] at hu, fun _ => ⟨by simp, by simp⟩⟩
  · refine ⟨fun hu => ?_, fun hu => ?_⟩
    · have he : ch = c := by simpa [hs] using hu.2.symm
      simp [he]
    · have he : ch ≠ c := fun e => hu ⟨hv, e ▸ hs⟩
      exact ⟨by simp [he], by simp [he]⟩

/-- The result mask of `VALIDATE` (R106). -/
theorem validateFrame_mask (f : Frame) (s : State) : (validateFrame f s).2 = frameMask f := by
  unfold frameMask
  obtain ⟨hc, h⟩ | ⟨hc, ht, h⟩ | ⟨hv, hn, h⟩ | ⟨c, hv, hs, h⟩ := validateFrame_cases f s <;> rw [h]
  · simp [Frame.valid, hc]
  · simp [Frame.valid, hc, ht]
  · simp [hv, hn]
  · cases c <;> simp [hv, hs]

/-- The conditions `VALIDATE` meets, in the order of R180. -/
theorem validateFrame_raised (f : Frame) (s : State) :
    (validateFrame f s).1.raised = s.raised ++ frameConditions f := by
  unfold frameConditions
  obtain ⟨hc, h⟩ | ⟨hc, ht, h⟩ | ⟨hv, hn, h⟩ | ⟨c, hv, hs, h⟩ := validateFrame_cases f s <;> rw [h]
  · simp [hc]
  · simp [hc, ht]
  · simp only [Frame.valid, Bool.and_eq_true] at hv
    simp [hv, hn]
  · simp only [Frame.valid, Bool.and_eq_true] at hv
    simp [hv, hs]

/-- What an accepted or waiting host command has done (R120, R121, R140, R152, R160 to R163). -/
theorem command_next {i : Instr} {s t : State} (hp : s.phase = .idle) (h : exec i s = .next t)
    (hi : (∃ m, i = .read m) ∨ i = .start ∨ i = .endConv ∨ i = .getO ∨ i = .getE ∨ i = .peekO ∨ i = .peekE) :
    (∃ m, i = .read m ∧ s.armed = false ∧
      t = { s with ack := false, req := m, got := 0, attempt := 0, blkBit := 0, phase := .waitLow }) ∨
    (i = .start ∧ ((s.edgeCapable = true ∧ t = { s with armed := true, bitIndex := 0, ack := false }.respond 1) ∨
      (s.edgeCapable = false ∧ t = (s.raise .unsupportedInterruptPin).respond 0))) ∨
    (i = .endConv ∧ ((s.edgeCapable = true ∧ t = { s with ack := true, armed := false }.respond 0) ∨
      (s.edgeCapable = false ∧ t = s.respond 0))) ∨
    (∃ ch, i = getter ch ∧ t = readAndAcknowledge ch s) ∨ (∃ ch, i = peeker ch ∧ t = s.respond (peekFlag ch s)) := by
  obtain ⟨m, rfl⟩ | rfl | rfl | rfl | rfl | rfl | rfl := hi
  · change execRead m s = _ at h
    simp only [execRead, whenReady, if_pos hp] at h
    split_ifs at h with h1
    cases h
    exact .inl ⟨m, rfl, by simpa using h1, rfl⟩
  · change execStart s = _ at h
    simp only [execStart, whenReady, if_pos hp] at h
    cases hc : s.edgeCapable <;> rw [hc] at h <;> cases h
    · exact .inr (.inl ⟨rfl, .inr ⟨rfl, rfl⟩⟩)
    · exact .inr (.inl ⟨rfl, .inl ⟨rfl, by simp⟩⟩)
  · change execEndConv s = _ at h
    simp only [execEndConv, whenReady, if_pos hp] at h
    cases hc : s.edgeCapable <;> rw [hc] at h <;> cases h
    · exact .inr (.inr (.inl ⟨rfl, .inr ⟨rfl, rfl⟩⟩))
    · exact .inr (.inr (.inl ⟨rfl, .inl ⟨rfl, by simp⟩⟩))
  · change execGetO s = _ at h
    simp only [execGetO, whenReady, if_pos hp] at h
    cases h
    exact .inr (.inr (.inr (.inl ⟨.obj, rfl, rfl⟩)))
  · change execGetE s = _ at h
    simp only [execGetE, whenReady, if_pos hp] at h
    cases h
    exact .inr (.inr (.inr (.inl ⟨.env, rfl, rfl⟩)))
  · change execPeekO s = _ at h
    simp only [execPeekO, whenReady, if_pos hp] at h
    cases h
    exact .inr (.inr (.inr (.inr ⟨.obj, rfl, rfl⟩)))
  · change execPeekE s = _ at h
    simp only [execPeekE, whenReady, if_pos hp] at h
    cases h
    exact .inr (.inr (.inr (.inr ⟨.env, rfl, rfl⟩)))

/-- What `EDGE` has done: nothing outside the window; inside it, from the state `s1` after step 1, one bit shifted and
counted, and on the 40th the buffer validated (R122). -/
theorem edge_next {d : Level} {tm : Millis} {s t : State} (h : exec (.edge d tm) s = .next t) :
    (s.armed = false ∧ t = s) ∨
    (s.armed = true ∧ ∃ s1 b,
      (s1 = s ∨ s1 = s.clearAccumulator tm ∨ s1 = (s.raise .acquisitionTimeout).clearAccumulator tm) ∧
      (s1 = s → s.bitIndex.toNat ≠ 40) ∧ (byteIndex s1.bitIndex).toNat < 5 ∧
      b = { s1 with
        buf := s1.buf.put (byteIndex s1.bitIndex).toNat (shiftByte (s1.buf.get (byteIndex s1.bitIndex).toNat) d)
        bitIndex := s1.bitIndex + 1 } ∧
      (t = b ∨ ((s1.bitIndex + 1).toNat = 40 ∧ t = (validateFrame b.frame b).1))) := by
  change execEdge d tm s = _ at h
  unfold execEdge at h
  cases ha : s.armed
  · rw [ha] at h
    cases h
    exact .inl ⟨rfl, rfl⟩
  · refine .inr ⟨rfl, ?_⟩
    simp only [ha, if_true] at h
    have hr : ∃ s1, edgeRestart tm s = s1 ∧
        (s1 = s ∨ s1 = s.clearAccumulator tm ∨ s1 = (s.raise .acquisitionTimeout).clearAccumulator tm) ∧
        (s1 = s → s.bitIndex.toNat ≠ 40) := by
      obtain ⟨_, hr⟩ | ⟨h1, _, hr⟩ | ⟨h1, _, hr⟩ := edgeRestart_cases tm s
      · refine ⟨_, hr, .inr (.inl rfl), fun e => ?_⟩
        have h0 : s.bitIndex = 0 := by rw [← e]; rfl
        rw [h0]
        decide
      · exact ⟨_, hr, .inr (.inr rfl), fun _ => h1⟩
      · exact ⟨_, hr, .inl rfl, fun _ => h1⟩
    obtain ⟨s1, he, hs1, h40⟩ := hr
    rw [he] at h
    obtain ⟨h5, hs⟩ | ⟨_, hs⟩ := shiftIn_cases (byteIndex s1.bitIndex) d s1
    · rw [hs] at h
      simp only [Host.Outcome.next.injEq] at h
      refine ⟨s1, _, hs1, h40, h5, rfl, ?_⟩
      rw [← h]
      obtain ⟨h1, hE⟩ | ⟨_, hE⟩ := edgeCount_cases { s1 with
        buf := s1.buf.put (byteIndex s1.bitIndex).toNat (shiftByte (s1.buf.get (byteIndex s1.bitIndex).toNat) d) }
      · exact .inr ⟨h1, by rw [hE]; rfl⟩
      · exact .inl hE
    · rw [hs] at h
      cases h

/-- What `POLL` in phase `WAIT_LOW` has done (R142). -/
theorem pollWaitLow_next {c d : Level} {s t : State} (h : exec (.pollWaitLow c d) s = .next t) :
    (s.phase ≠ .waitLow ∧ t = s) ∨
    (s.phase = .waitLow ∧ (t = s.tick ∨ ((byteIndex s.blkBit).toNat < 5 ∧ t = { s.tick with
      buf := s.buf.put (byteIndex s.blkBit).toNat (shiftByte (s.buf.get (byteIndex s.blkBit).toNat) d)
      phase := .waitHigh }))) := by
  change execPollWaitLow c d s = _ at h
  unfold execPollWaitLow at h
  split_ifs at h with h1 h2
  · refine .inr ⟨h1, ?_⟩
    obtain ⟨h5, hs⟩ | ⟨_, hs⟩ := shiftIn_cases (byteIndex s.blkBit) d s.tick
    · rw [hs] at h
      cases h
      exact .inr ⟨h5, rfl⟩
    · rw [hs] at h
      cases h
  · cases h
    exact .inr ⟨h1, .inl rfl⟩
  · cases h
    exact .inl ⟨h1, rfl⟩

/-- What `POLL` in phase `WAIT_HIGH` has done (R143). -/
theorem pollWaitHigh_next {c d : Level} {s t : State} (h : exec (.pollWaitHigh c d) s = .next t) :
    (s.phase ≠ .waitHigh ∧ t = s) ∨
    (s.phase = .waitHigh ∧ (t = s.tick ∨
      (s.blkBit.toNat < 39 ∧ t = { s.tick with blkBit := s.blkBit + 1, phase := .waitLow }) ∨
      (39 ≤ s.blkBit.toNat ∧ t = endAttempt s.tick))) := by
  change execPollWaitHigh c d s = _ at h
  unfold execPollWaitHigh at h
  split_ifs at h with h1 h2 h3
  · cases h
    exact .inr ⟨h1, .inr (.inl ⟨h3, rfl⟩)⟩
  · cases h
    exact .inr ⟨h1, .inr (.inr ⟨Nat.le_of_not_lt h3, rfl⟩)⟩
  · cases h
    exact .inr ⟨h1, .inl rfl⟩
  · cases h
    exact .inl ⟨h1, rfl⟩

/-- What the end of an attempt has done: the buffer validated, the mask gathered, then the end of the read or the next
attempt (R143). -/
theorem endAttempt_next (s : State) :
    ∃ xo xe uo ue r s', s' = { s with
        xObj := xo, xEnv := xe, updObj := uo, updEnv := ue, raised := r, got := s.got ||| frameMask s.frame } ∧
      Validated s.frame s s' ∧
      (endAttempt s = finishRead s' ∨ (s.attempt.toNat ≠ 9 ∧ endAttempt s = nextAttempt s')) := by
  obtain ⟨u, r, hv, hcase⟩ := endAttempt_cases s
  obtain ⟨xo, xe, uo, ue, r', hf⟩ := validateFrame_frame s.frame s
  have hV := validateFrame_validated s.frame s
  have hM := validateFrame_mask s.frame s
  rw [hv] at hf hV hM
  simp only at hf hM
  subst hf hM
  have hV' : ∀ g r2, Validated s.frame s
      { s with xObj := xo, xEnv := xe, updObj := uo, updEnv := ue, raised := r2, got := g } := by
    intro g r2 ch
    refine ⟨(hV ch).1, fun h => ?_⟩
    have := (hV ch).2 h
    cases ch <;> exact ⟨this.1, this.2⟩
  obtain ⟨_, he⟩ | ⟨_, _, he⟩ | ⟨_, h9, he⟩ := hcase
  · exact ⟨xo, xe, uo, ue, _, _, rfl, hV' _ _, .inl he⟩
  · exact ⟨xo, xe, uo, ue, _, _, rfl, hV' _ _, .inl he⟩
  · exact ⟨xo, xe, uo, ue, _, _, rfl, hV' _ _, .inr ⟨h9, he⟩⟩

end Sys2Proof.Machine
end

