-- ==== Sys2Proof/Laws/PerInstr.lean ====
section
/-! SUPPORT. Laws/PerInstr.lean: for every operation, that its encoding matches its row of spec/opcode_table.json: the
row's `match` under its `mask` where it has them, its kind of encoding otherwise (R80). -/

namespace Sys2Proof.Laws.TableRow

/-- The encoding of a well-formed operation is of its row. -/
def Statement (i : Instr) : Prop :=
  i.wellFormed = true →
    match i with
    | .read _ => ∃ cw, encode i = .event (.cmd cw) ∧ cw &&& 0xFC = 0x10
    | .start => encode i = .event (.cmd 0x20)
    | .endConv => encode i = .event (.cmd 0x30)
    | .getO => encode i = .event (.cmd 0x40)
    | .getE => encode i = .event (.cmd 0x41)
    | .peekO => encode i = .event (.cmd 0x50)
    | .peekE => encode i = .event (.cmd 0x51)
    | .edge _ _ => ∃ e, encode i = .event (.edge e)
    | .pollWaitLow _ _ => ∃ l, encode i = .event (.poll l)
    | .pollWaitHigh _ _ => ∃ l, encode i = .event (.poll l)
    | .validate _ _ _ _ _ => ∃ w, encode i = .frame w
    | .objFrame _ _ _ => ∃ w, encode i = .frame w ∧ w &&& 0xFF000000FF#40 = 0x4C0000000D
    | .envFrame _ _ _ => ∃ w, encode i = .frame w ∧ w &&& 0xFF000000FF#40 = 0x660000000D
    | .shift _ _ => encode i = .internal
    | .checksum => encode i = .internal
    | .terminator => encode i = .internal
    | .classify => encode i = .internal
    | .convert _ _ => encode i = .internal
    | .reset => encode i = .rstPort

/-- The outer bytes of a frame, whatever stands between them. -/
theorem outer_bytes (a b c v e : Byte) :
    Frame.toWord ⟨a, b, c, v, e⟩ &&& 0xFF000000FF#40 = a.setWidth 40 <<< 32 ||| e.setWidth 40 := by
  have outer : (0xFF000000FF#40) = 0xFF#8 ++ 0#8 ++ 0#8 ++ 0#8 ++ 0xFF#8 := by decide
  have both : ∀ (n m : Nat) (p r : BitVec n) (q t : BitVec m), (p ++ q) &&& (r ++ t) = (p &&& r) ++ (q &&& t) := by
    intro n m p r q t
    ext k hk
    simp only [BitVec.getElem_and, BitVec.getElem_append]
    split <;> rfl
  have ones : ∀ y : Byte, y &&& 0xFF#8 = y := by decide
  have none : ∀ y : Byte, y &&& 0#8 = 0#8 := by decide
  have joined : Frame.toWord ⟨a, b, c, v, e⟩ &&& 0xFF000000FF#40 = a ++ 0#8 ++ 0#8 ++ 0#8 ++ e := by
    rw [outer, Frame.toWord, both, both, both, both, ones, none, none, none, ones]
  rw [joined]
  ext k hk
  simp only [BitVec.getElem_append, BitVec.getElem_or, BitVec.getElem_shiftLeft, BitVec.getElem_setWidth]
  grind

theorem read (m : Mask) : Statement (.read m) := fun _ => ⟨_, rfl, by revert m; decide⟩
theorem start : Statement .start := fun _ => rfl
theorem endConv : Statement .endConv := fun _ => rfl
theorem getO : Statement .getO := fun _ => rfl
theorem getE : Statement .getE := fun _ => rfl
theorem peekO : Statement .peekO := fun _ => rfl
theorem peekE : Statement .peekE := fun _ => rfl
theorem edge (d : Level) (t : Millis) : Statement (.edge d t) := fun _ => ⟨_, rfl⟩
theorem pollWaitLow (c d : Level) : Statement (.pollWaitLow c d) := fun _ => ⟨_, rfl⟩
theorem pollWaitHigh (c d : Level) : Statement (.pollWaitHigh c d) := fun _ => ⟨_, rfl⟩
theorem validate (a b c v e : Byte) : Statement (.validate a b c v e) := fun _ => ⟨_, rfl⟩
theorem objFrame (b c v : Byte) : Statement (.objFrame b c v) := fun _ => ⟨_, rfl, (outer_bytes _ b c v _).trans (by decide)⟩
theorem envFrame (b c v : Byte) : Statement (.envFrame b c v) := fun _ => ⟨_, rfl, (outer_bytes _ b c v _).trans (by decide)⟩
theorem shift (i : BitVec 3) (d : Level) : Statement (.shift i d) := fun _ => rfl
theorem checksum : Statement .checksum := fun _ => rfl
theorem terminator : Statement .terminator := fun _ => rfl
theorem classify : Statement .classify := fun _ => rfl
theorem convert (b1 b2 : Byte) : Statement (.convert b1 b2) := fun _ => rfl
theorem reset : Statement .reset := fun _ => rfl

end Sys2Proof.Laws.TableRow
end

