-- ==== Sys2Proof/Tests/Slice0.lean ====
section
/-! SUPPORT. Tests/Slice0.lean: well-formedness smoke tests, words written out from the spec's encodings, single steps with
the values of spec/95_test_vectors.md, and for each statement with hypotheses a state and operands that meet them. -/

namespace Sys2Proof.Tests

open Sys2Proof.Machine

/-- The block after reset with a given strap and the two temperatures of 95_test_vectors 2.7 in place of the draws. -/
def block (capable : Bool) : State :=
  { State.reset with xObj := 0x4190CCCD, xEnv := 0x41BECCCD, edgeCapable := capable }

/-- An open conversion window: bits so far, stamp, buffer. -/
def inWindow (bits : BitVec 6) (stamp : Millis) (f : Frame) : State :=
  { block true with armed := true, ack := false, bitIndex := bits, startTs := stamp, buf := Memory.ofFrame f }

/-- A blocking read in progress: phase, bit, attempt, request, gathered so far, buffer. -/
def reading (ph : Phase) (bit : BitVec 6) (attempt : BitVec 4) (req got : Mask) (f : Frame) : State :=
  { block false with
    ack := false, phase := ph, blkBit := bit, attempt := attempt, req := req, got := got, buf := Memory.ofFrame f }

/-- The state after an outcome. -/
def after : Host.Outcome State Fault Refusal → Option State
  | .next t => some t
  | .fault _ => none
  | .refused _ => none

/-- The frame `FO` of 95_test_vectors. -/
def fo : Frame := ⟨0x4C, 0x12, 0x34, 0x92, 0x0D⟩

/-- The frame `FE`. -/
def fe : Frame := ⟨0x66, 0x12, 0x90, 0x08, 0x0D⟩

/-- The frame `FB`, the source's printed tuple, whose checksum is wrong (C2). -/
def fb : Frame := ⟨0x4C, 0x12, 0x34, 0x62, 0x0D⟩

/-- An empty buffer. -/
def f0 : Frame := ⟨0, 0, 0, 0, 0⟩

/-! Well-formedness. -/

theorem test_wf_object_frame : (Instr.objFrame 0x12 0x34 0x92).wellFormed = true := by decide
theorem test_wf_refuses_object_checksum : (Instr.objFrame 0x12 0x34 0x62).wellFormed = false := by decide
theorem test_wf_refuses_environment_checksum : (Instr.envFrame 0x12 0x90 0x09).wellFormed = false := by decide
theorem test_wf_refuses_class_frame_as_validate : (Instr.validate 0x4C 0x12 0x34 0x92 0x0D).wellFormed = false := by decide
theorem test_wf_refuses_sixth_byte : (Instr.shift 5 1).wellFormed = false := by decide

/-! Decoding: words written out from R76, R79 and R71. -/

theorem test_decode_read : decode .idle (.event (.cmd 0b00010011)) = .ok (.read 0b11) := by decide
theorem test_decode_start : decode .idle (.event (.cmd 0b00100000)) = .ok .start := by decide
theorem test_decode_end : decode .idle (.event (.cmd 0b00110000)) = .ok .endConv := by decide
theorem test_decode_getO : decode .idle (.event (.cmd 0b01000000)) = .ok .getO := by decide
theorem test_decode_getE : decode .idle (.event (.cmd 0b01000001)) = .ok .getE := by decide
theorem test_decode_peekO : decode .idle (.event (.cmd 0b01010000)) = .ok .peekO := by decide
theorem test_decode_peekE : decode .idle (.event (.cmd 0b01010001)) = .ok .peekE := by decide
theorem test_decode_edge :
    decode .idle (.event (.edge 0b000000000000000000000011111101000)) = .ok (.edge 0 2024) := by decide
theorem test_decode_poll_low : decode .waitLow (.event (.poll 0b01)) = .ok (.pollWaitLow 0 1) := by decide
theorem test_decode_poll_high : decode .waitHigh (.event (.poll 0b10)) = .ok (.pollWaitHigh 1 0) := by decide
theorem test_decode_poll_idle : decode .idle (.event (.poll 0b10)) = .error .noStep := by decide
theorem test_decode_object_frame :
    decode .idle (.frame 0b0100110000010010001101001001001000001101) = .ok (.objFrame 0x12 0x34 0x92) := by decide
theorem test_decode_environment_frame :
    decode .idle (.frame 0b0110011000010010100100000000100000001101) = .ok (.envFrame 0x12 0x90 0x08) := by decide
theorem test_decode_validate :
    decode .idle (.frame 0b0100110000010010001101000110001000001101) = .ok (.validate 0x4C 0x12 0x34 0x62 0x0D) := by decide
theorem test_decode_reset : decode .waitLow .rstPort = .ok .reset := by decide
theorem test_encode_internal :
    [Instr.shift 4 1, .checksum, .terminator, .classify, .convert 0x12 0x34].map encode = List.replicate 5 .internal := by
  decide
/-- The reserved words that 95_test_vectors 2.9 lists. -/
theorem test_decode_reserved :
    ∀ cw ∈ [0x00, 0x14, 0x18, 0x1C, 0x21, 0x33, 0x42, 0x43, 0x52, 0x60, (0xFF : CommandWord)],
      decode .idle (.event (.cmd cw)) = .error (.reservedCommand cw) := by decide
theorem test_table_word : decodeTableWord 40 0x660000660D = some (.envFrame 0 0 0x66) := by decide

/-! Single steps (95_test_vectors, section 2). -/

theorem test_getO_clears_its_flag :
    (after (exec .getO { block true with updObj := true, updEnv := true })).map (fun t => (t.rsp, t.updObj, t.updEnv)) =
      some (some 0x4190CCCD, false, true) := by decide
theorem test_getE_clears_its_flag :
    (after (exec .getE { block true with updObj := true, updEnv := true })).map (fun t => (t.rsp, t.updObj, t.updEnv)) =
      some (some 0x41BECCCD, true, false) := by decide
theorem test_peekO_leaves_the_flag :
    (after (exec .peekO { block true with updObj := true })).map (fun t => (t.rsp, t.updObj)) = some (some 1, true) := by
  decide
theorem test_peekE_reads_its_own_flag :
    (after (exec .peekE { block true with updObj := true })).map (fun t => (t.rsp, t.updEnv)) = some (some 0, false) := by
  decide
theorem test_start_on_a_capable_block :
    (after (exec .start { block true with bitIndex := 20, startTs := 3000 })).map
      (fun t => (t.rsp, t.armed, t.ack, t.bitIndex, t.startTs)) = some (some 1, true, false, 0, 3000) := by decide
theorem test_start_on_an_incapable_block :
    (after (exec .start (block false))).map (fun t => (t.rsp, t.armed, t.ack, t.raised)) =
      some (some 0, false, true, [.unsupportedInterruptPin]) := by decide
theorem test_end_keeps_the_bit_index :
    (after (exec .endConv (inWindow 20 3000 ⟨0x4C, 0x12, 0x03, 0, 0⟩))).map
      (fun t => (t.rsp, t.armed, t.ack, t.bitIndex, t.startTs)) = some (some 0, false, true, 20, 3000) := by decide
theorem test_edge_completes_a_frame :
    (after (exec (.edge 1 1019) (inWindow 39 1000 ⟨0x4C, 0x12, 0x34, 0x92, 0x06⟩))).map
      (fun t => (t.frame, t.bitIndex, t.startTs, t.xObj, t.updObj)) = some (fo, 40, 1000, 0x4190CCCD, true) := by decide
theorem test_edge_timeout_is_strict :
    (after (exec (.edge 0 0x00000009) (inWindow 5 0xFFFFFFF0 ⟨0x13, 0, 0, 0, 0⟩))).map
      (fun t => (t.frame, t.bitIndex, t.startTs)) = some (⟨0x26, 0, 0, 0, 0⟩, 6, 0xFFFFFFF0) ∧
    (after (exec (.edge 0 0x0000000A) (inWindow 5 0xFFFFFFF0 ⟨0x13, 0, 0, 0, 0⟩))).map
      (fun t => (t.frame, t.bitIndex, t.startTs, t.raised)) = some (f0, 1, 0x0000000A, [.acquisitionTimeout]) := by decide
theorem test_read_starts :
    (after (exec (.read 1) { block true with attempt := 9, blkBit := 39, got := 3, updObj := true })).map
      (fun t => ((t.ack, t.req, t.got), (t.attempt, t.blkBit, t.phase), (t.updObj, t.rsp))) =
      some ((false, 1, 0), (0, 0, .waitLow), (true, none)) := by decide
theorem test_read_refused_in_the_window : exec (.read 3) (inWindow 0 0 f0) = .refused .readWhileArmed := rfl
theorem test_poll_low_samples :
    (after (exec (.pollWaitLow 0 1) (reading .waitLow 39 0 3 0 ⟨0, 0, 0, 0, 0x06⟩))).map
      (fun t => (t.frame.term, t.phase, t.blkBit, t.liveTick)) = some (0x0D, .waitHigh, 39, true) := by decide
theorem test_poll_high_next_attempt :
    (after (exec (.pollWaitHigh 1 0) (reading .waitHigh 39 0 3 0 fo))).map
      (fun t => ((t.xObj, t.updObj, t.got), (t.attempt, t.blkBit, t.phase, t.ack))) =
      some ((0x4190CCCD, true, 1), (1, 0, .waitLow, false)) := by decide
theorem test_poll_high_exhausted :
    (after (exec (.pollWaitHigh 1 0) (reading .waitHigh 39 9 1 0 fb))).map
      (fun t => ((t.got, t.ack, t.phase), (t.rsp, t.attempt, t.raised))) =
      some ((0, true, .idle), (some 0, 9, [.checksumMismatch, .attemptsExhausted])) := by decide
theorem test_validate_unknown_address :
    (after (exec (.validate 0xFF 0xFF 0xFF 0xFD 0x0D) (block true))).map (fun t => (t.returned, t.updObj, t.raised)) =
      some (.mask 0, false, [.unknownAddress]) := by decide
theorem test_validate_checksum_first :
    (after (exec (.validate 0x4C 0x12 0x34 0x62 0x0A) (block true))).map (fun t => (t.returned, t.raised)) =
      some (.mask 0, [.checksumMismatch]) := by decide
theorem test_object_frame_smallest :
    (after (exec (.objFrame 0x00 0x00 0x4C) (block true))).map (fun t => (t.xObj, t.updObj, t.updEnv, t.returned)) =
      some (0xC3889333, true, false, .mask 1) := by decide
theorem test_environment_frame_largest :
    (after (exec (.envFrame 0xFF 0xFF 0x64) (block true))).map (fun t => (t.xEnv, t.updEnv, t.updObj, t.returned)) =
      some (0x456EEC9A, true, false, .mask 2) := by decide
theorem test_shift_drops_bit_seven :
    (after (exec (.shift 0 0) (inWindow 0 0 ⟨0xA6, 0, 0, 0, 0⟩))).map State.frame = some ⟨0x4C, 0, 0, 0, 0⟩ := by decide
theorem test_shift_to_zero_keeps_the_form :
    (after (exec (.shift 2 0) (inWindow 0 0 ⟨0x01, 0, 0x80, 0, 0x02⟩))).map State.buf = some [⟨0, 1⟩, ⟨4, 2⟩] := by decide
theorem test_checksum_carries :
    (after (exec .checksum (inWindow 0 0 fe))).map State.returned = some (.checksumOk true) ∧
    (after (exec .checksum (inWindow 0 0 fb))).map State.raised = some [.checksumMismatch] := by decide
theorem test_term :
    (after (exec .terminator (inWindow 0 0 ⟨0x4C, 0x12, 0x34, 0x92, 0x0A⟩))).map (fun t => (t.returned, t.raised)) =
      some (.termOk false, [.terminatorMismatch]) := by decide
theorem test_classify :
    (after (exec .classify (inWindow 0 0 ⟨0x4D, 0, 0, 0, 0⟩))).map (fun t => (t.returned, t.raised)) =
      some (.channelClass none, [.unknownAddress]) := by decide
theorem test_convert_about_zero :
    convertBytes 0x11 0x12 = 0xBCCCCCCD ∧ convertBytes 0x11 0x13 = 0x3D19999A ∧ convertBytes 0x12 0x68 = 0x41AACCCD ∧
    convertBytes 0x80 0x00 = 0x44DDDB33 := by decide
theorem test_convert_chain_edges :
    convertChain 2322 = 0xC3000666 ∧ convertChain 2323 = 0xC2FFECCC ∧ convertChain 6418 = 0x42FFF334 ∧
    convertChain 6419 = 0x4300099A := by decide
theorem test_reset_abandons_a_read :
    (after (exec .reset (reading .waitHigh 7 4 3 1 fo))).map (fun t => (t.phase, t.ack, t.attempt, t.frame, t.rsp)) =
      some (.idle, true, 0, f0, none) := by decide
theorem test_step_passes_over_a_waiting_command :
    (after (step { reading .waitLow 0 0 3 0 f0 with inputs := [⟨false, some (.cmd 0x40)⟩, ⟨false, some (.poll 0b01)⟩] })).map
      (fun t => (t.inputs, t.phase, t.byteAt 0, t.rsp)) =
      some ([⟨false, some (.cmd 0x40)⟩], .waitHigh, 1, none) := by decide
theorem test_fetch_word_runs :
    (after (step (State.reset.withFetchWord 8 0x13))).map (fun t => (t.phase, t.req, t.inputs)) =
      some (.waitLow, 3, []) ∧
    (after (step (State.reset.withFetchWord 40 0x4C1234920D))).map (fun t => (t.xObj, t.updObj)) =
      some (0x4190CCCD, true) := by decide

/-! Witnesses: for each statement with hypotheses a state and operands that meet all of them, one for each clause. -/

/-- An idle block with a flag set. -/
def idle (capable : Bool) : State := { block capable with updObj := true }

/-- An idle block with one event waiting. -/
def waiting (e : Event) : State := { idle true with inputs := [⟨false, some e⟩] }

theorem witness_DecodeOfEncodeIsTheOperation :
    (Instr.pollWaitHigh 1 0).wellFormed = true ∧ (Instr.pollWaitHigh 1 0).selectedIn .waitHigh = true ∧
    encode (.pollWaitHigh 1 0) ≠ .internal ∧
    (Instr.envFrame 0xFF 0xFF 0x64).wellFormed = true ∧ (Instr.envFrame 0xFF 0xFF 0x64).selectedIn .idle = true ∧
    encode (.envFrame 0xFF 0xFF 0x64) ≠ .internal := by decide
theorem witness_DecodedOperationEncodesToItsBits :
    decode .waitLow (.event (.poll 0b11)) = .ok (.pollWaitLow 1 1) := by decide
theorem witness_TenCommandWordsAreDefined :
    (0x14 : CommandWord) ∉ [0x10, 0x11, 0x12, 0x13, 0x20, 0x30, 0x40, 0x41, 0x50, (0x51 : CommandWord)] := by decide
theorem witness_GettersReadAndAcknowledge : (idle true).phase = .idle := rfl
theorem witness_PeeksReadTheFlagOnly : (idle false).phase = .idle := rfl
theorem witness_SecondReadReturnsTheSameValue : (idle true).phase = .idle := rfl
theorem witness_StartOpensTheWindowOrFails :
    (idle true).phase = .idle ∧ (idle true).edgeCapable = true ∧ (idle false).phase = .idle ∧
    (idle false).edgeCapable = false := by decide
theorem witness_EndClosesTheWindow :
    (inWindow 20 3000 fo).phase = .idle ∧ (inWindow 20 3000 fo).edgeCapable = true ∧ (idle false).phase = .idle ∧
    (idle false).edgeCapable = false := by decide
theorem witness_EdgeOutsideTheWindowIsLost : (idle true).armed = false := rfl
/-- The frame complete; the last position; exactly 25 ms; 26 ms. -/
theorem witness_EdgeRestartsShiftsAndDecodes :
    ((inWindow 40 1000 fo).armed = true ∧ (inWindow 40 1000 fo).buf.wf = true ∧
      (inWindow 40 1000 fo).bitIndex.toNat = 40) ∧
    ((inWindow 39 1000 fo).armed = true ∧ (inWindow 39 1000 fo).buf.wf = true ∧
      (inWindow 39 1000 fo).bitIndex.toNat ≤ 40 ∧ ((1025 : Millis) - (inWindow 39 1000 fo).startTs).toNat = 25 ∧
      ((1026 : Millis) - (inWindow 39 1000 fo).startTs).toNat = 26) := by decide
/-- The frame before complete; more than 25 ms since the stamp; the accumulator empty and its stamp recent. -/
theorem witness_FortyEdgesDecodeOneFrame :
    ((inWindow 40 1000 fo).armed = true ∧ (inWindow 40 1000 fo).buf.wf = true ∧
      (inWindow 40 1000 fo).bitIndex.toNat = 40 ∧ ∀ k, k < 40 → ((1001 : Millis) - 1001).toNat ≤ 25) ∧
    ((inWindow 13 1000 fo).armed = true ∧ (inWindow 13 1000 fo).buf.wf = true ∧
      (inWindow 13 1000 fo).bitIndex.toNat ≤ 40 ∧ 25 < ((1026 : Millis) - (inWindow 13 1000 fo).startTs).toNat ∧
      ∀ k, k < 40 → ((1026 : Millis) - 1026).toNat ≤ 25) ∧
    ((inWindow 0 1000 fo).armed = true ∧ (inWindow 0 1000 fo).buf.wf = true ∧ (inWindow 0 1000 fo).bitIndex = 0 ∧
      ∀ k, k < 40 → ((1025 : Millis) - (inWindow 0 1000 fo).startTs).toNat ≤ 25) := by
  refine ⟨⟨rfl, rfl, rfl, fun _ _ => ?_⟩, ⟨rfl, rfl, ?_, ?_, fun _ _ => ?_⟩, rfl, rfl, rfl, fun _ _ => ?_⟩ <;> decide
theorem witness_GetterAndEdgeInEitherOrder :
    ∃ e, exec (.edge 1 1019) (inWindow 39 1000 ⟨0x4C, 0x12, 0x34, 0x92, 0x06⟩) = .next e ∧ updates e.frame .obj ∧
      (inWindow 39 1000 ⟨0x4C, 0x12, 0x34, 0x92, 0x06⟩).armed = true ∧
      (inWindow 39 1000 ⟨0x4C, 0x12, 0x34, 0x92, 0x06⟩).phase = .idle ∧
      (inWindow 39 1000 ⟨0x4C, 0x12, 0x34, 0x92, 0x06⟩).buf.wf = true ∧
      (inWindow 39 1000 ⟨0x4C, 0x12, 0x34, 0x92, 0x06⟩).bitIndex.toNat = 39 ∧
      ((1019 : Millis) - (inWindow 39 1000 ⟨0x4C, 0x12, 0x34, 0x92, 0x06⟩).startTs).toNat ≤ 25 :=
  ⟨_, rfl, by unfold updates; decide, by decide⟩
theorem witness_ReadStartsTheSequencer : (idle false).phase = .idle ∧ (idle false).armed = false := by decide
theorem witness_ReadInsideTheWindowIsRefused : (inWindow 0 0 f0).phase = .idle ∧ (inWindow 0 0 f0).armed = true := by
  decide
theorem witness_CommandsWaitWhileBusy :
    encode (.getE) = .event (.cmd 0x41) ∧ (reading .waitHigh 39 9 3 1 fo).phase ≠ .idle := by decide
/-- The first and the last bit. -/
theorem witness_PollWaitLowSamplesOnLow :
    ((reading .waitLow 0 0 3 0 f0).phase = .waitLow ∧ (reading .waitLow 0 0 3 0 f0).buf.wf = true ∧
      (reading .waitLow 0 0 3 0 f0).blkBit.toNat = 0) ∧
    ((reading .waitLow 39 0 3 0 fo).phase = .waitLow ∧ (reading .waitLow 39 0 3 0 fo).buf.wf = true ∧
      (reading .waitLow 39 0 3 0 fo).blkBit.toNat = 39) := by decide
/-- Bit 38; the last bit with the request met, with it unmet in attempt 8, and with it unmet in attempt 9. -/
theorem witness_PollWaitHighAdvancesOnHigh :
    ((reading .waitHigh 38 0 3 0 fo).phase = .waitHigh ∧ (reading .waitHigh 38 0 3 0 fo).blkBit.toNat < 39) ∧
    (∃ t, exec (.pollWaitHigh 1 0) (reading .waitHigh 39 0 1 0 fo) = .next t ∧ 0b01 &&& t.got = 0b01) ∧
    (∃ t, exec (.pollWaitHigh 1 0) (reading .waitHigh 39 8 2 0 fo) = .next t ∧ 0b10 &&& t.got ≠ 0b10 ∧
      (reading .waitHigh 39 8 2 0 fo).attempt ≠ 9) ∧
    (∃ t, exec (.pollWaitHigh 1 0) (reading .waitHigh 39 9 2 0 fo) = .next t ∧ 0b10 &&& t.got ≠ 0b10 ∧
      (reading .waitHigh 39 9 2 0 fo).attempt = 9) :=
  ⟨by decide, ⟨_, rfl, by decide⟩, ⟨_, rfl, by decide, by decide⟩, ⟨_, rfl, by decide, by decide⟩⟩
theorem witness_PollOutsideItsPhaseChangesNothing :
    (reading .waitHigh 0 0 3 0 fo).phase ≠ .waitLow ∧ (reading .waitLow 0 0 3 0 fo).phase ≠ .waitHigh := by decide
theorem witness_EmptyRequestEndsAfterOneAttempt :
    (reading .waitHigh 39 0 0 0 fb).phase = .waitHigh ∧ (reading .waitHigh 39 0 0 0 fb).req = 0 ∧
    39 ≤ (reading .waitHigh 39 0 0 0 fb).blkBit.toNat := by decide
theorem witness_StuckClockHangsTheRead :
    ((reading .waitLow 5 0 3 0 fo).phase = .waitLow ∧ ∀ o ∈ [((1 : Level), (0 : Level)), (1, 1)], o.1 = 1) ∧
    ((reading .waitHigh 5 0 3 0 fo).phase = .waitHigh ∧ ∀ o ∈ [((0 : Level), (0 : Level)), (0, 1)], o.1 = 0) := by decide
/-- The loop ends on one attempt of an empty request, and does not on one look. -/
theorem witness_SequencerPerformsTheLoop :
    (block true).phase = .idle ∧ (block true).armed = false ∧
    (∃ u, readLoop 0 (block true) ((List.range 40).flatMap fun _ => [((0 : Level), (1 : Level)), (1, 0)]) = some u) ∧
    readLoop 3 (block true) [(0, 1)] = none :=
  ⟨rfl, rfl, ⟨_, rfl⟩, rfl⟩
theorem witness_TenAttemptsOfPulsesEndTheRead :
    (List.replicate 400 (1 : Level)).length = 400 ∧ (reading .waitLow 0 0 2 0 f0).phase = .waitLow ∧
    (reading .waitLow 0 0 2 0 f0).attempt = 0 ∧ (reading .waitLow 0 0 2 0 f0).blkBit = 0 :=
  ⟨List.length_replicate, rfl, rfl, rfl⟩
theorem witness_ShiftMovesOneByteLeft :
    (0 : BitVec 3).toNat ≤ 4 ∧ (4 : BitVec 3).toNat ≤ 4 ∧ (inWindow 0 0 fo).buf.wf = true := by decide
theorem witness_ShiftOutsideTheBufferFaults : 5 ≤ (5 : BitVec 3).toNat ∧ 5 ≤ (7 : BitVec 3).toNat := by decide
theorem witness_EightShiftsReplaceTheByte :
    (0 : BitVec 3).toNat ≤ 4 ∧ (4 : BitVec 3).toNat ≤ 4 ∧ (inWindow 0 0 fe).buf.wf = true := by decide
theorem witness_FortyShiftsFillTheFrame : (inWindow 0 0 ⟨0xFF, 0, 0xFF, 0, 0xFF⟩).buf.wf = true := by decide
theorem witness_ConvertIsTheNearestValue : f32Finite 0x4190CCCC = true := by decide
theorem witness_ConvertIsNormalWithTheRightSign : raw12 0x11 0x12 = 4370 ∧ raw12 0x11 0x13 = 4371 := by decide
theorem witness_ConvertIsStrictlyIncreasing : raw12 0x11 0x12 < raw12 0x11 0x13 ∧ raw12 0x00 0xFF < raw12 0x01 0x00 := by
  decide
/-- Both sides of both boundaries. -/
theorem witness_ChainConversionDiffersExactlyInside :
    (convertChain 2322 = convertExact 2322 ∧ convertChain 2323 ≠ convertExact 2323) ∧
    (convertChain 6418 ≠ convertExact 6418 ∧ convertChain 6419 = convertExact 6419) := by decide
/-- Each class of frame, and each of the three conditions. -/
theorem witness_ValidateWritesAtMostOneChannel :
    frameMask fo = 0b01 ∧ frameMask fe = 0b10 ∧ frameConditions fb = [.checksumMismatch] ∧
    frameConditions f0 = [.terminatorMismatch] ∧ frameConditions ⟨0, 0, 0, 0, 0x0D⟩ = [.unknownAddress] := by decide
theorem witness_FrameClassesWriteTheirChannel :
    (Instr.objFrame 0x12 0x34 0x92).wellFormed = true ∧ (Instr.envFrame 0x12 0x90 0x08).wellFormed = true := by decide
/-- A ready block; and a read in progress with a command waiting before the look. -/
theorem witness_StepRunsTheDecodedOperation :
    (PresentsNext (waiting (.cmd 0x40)) ⟨false, some (.cmd 0x40)⟩ [] ∧
      decode (waiting (.cmd 0x40)).phase (.event (.cmd 0x40)) = .ok .getO) ∧
    (PresentsNext { reading .waitLow 0 0 3 0 f0 with inputs := [⟨false, some (.cmd 0x40)⟩, ⟨false, some (.poll 0b01)⟩] }
        ⟨false, some (.poll 0b01)⟩ [⟨false, some (.cmd 0x40)⟩] ∧
      decode .waitLow (.event (.poll 0b01)) = .ok (.pollWaitLow 0 1)) ∧
    PresentsNext { reading .waitLow 0 0 3 0 f0 with inputs := [⟨false, some (.cmd 0x40)⟩, ⟨true, none⟩] }
      ⟨true, none⟩ [⟨false, some (.cmd 0x40)⟩] :=
  ⟨⟨.inl ⟨rfl, rfl⟩, by decide⟩,
    ⟨.inr ⟨by decide, by simp [IsCommand], [⟨false, some (.cmd 0x40)⟩], [], by simp [IsCommand], rfl, rfl⟩, by decide⟩,
    .inr ⟨by decide, by simp [IsCommand], [⟨false, some (.cmd 0x40)⟩], [], by simp [IsCommand], rfl, rfl⟩⟩
/-- Nothing presented; and a command presented to a busy block. -/
theorem witness_StepHoldsWithNothingToPerform :
    ((idle true).phase = .idle ∧ (idle true).inputs = []) ∧
    (reading .waitLow 0 0 3 0 f0).phase ≠ .idle ∧ ∀ w ∈ [(⟨false, some (.cmd 0x40)⟩ : Instant)], IsCommand w :=
  ⟨⟨rfl, rfl⟩, by decide, by simp [IsCommand]⟩
/-- No event during a read; a look outside a read; an edge outside the window. -/
theorem witness_InstantWithoutAStepLeavesTheBlock :
    PresentsNext { reading .waitLow 0 0 3 0 f0 with inputs := [⟨false, none⟩] } ⟨false, none⟩ [] ∧
    (PresentsNext (waiting (.poll 0b01)) ⟨false, some (.poll 0b01)⟩ [] ∧ (waiting (.poll 0b01)).phase = .idle) ∧
    (PresentsNext (waiting (.edge 0x1000003FB)) ⟨false, some (.edge 0x1000003FB)⟩ [] ∧
      (waiting (.edge 0x1000003FB)).armed = false) :=
  ⟨.inr ⟨by decide, by simp [IsCommand], [], [], by simp, rfl, rfl⟩, ⟨.inl ⟨rfl, rfl⟩, rfl⟩, ⟨.inl ⟨rfl, rfl⟩, rfl⟩⟩
theorem witness_ResetWinsOverAnythingSimultaneous :
    State.inputs { idle true with inputs := [⟨true, some (.cmd 0x20)⟩] } = ⟨true, some (.cmd 0x20)⟩ :: [] := rfl
theorem witness_ReservedCommandIsRefused :
    (waiting (.cmd 0x14)).phase = .idle ∧ (waiting (.cmd 0x14)).inputs = ⟨false, some (.cmd 0x14)⟩ :: [] ∧
    (0x14 : CommandWord) ∉ [0x10, 0x11, 0x12, 0x13, 0x20, 0x30, 0x40, 0x41, 0x50, (0x51 : CommandWord)] := by decide
theorem witness_StepRefusesOnlyTheTwoCases :
    step (waiting (.cmd 0x14)) = .refused (.reservedCommand 0x14) ∧
    step { inWindow 0 0 f0 with inputs := [⟨false, some (.cmd 0x13)⟩] } = .refused .readWhileArmed := ⟨rfl, rfl⟩

/-- The invariant holds in an idle block, in a window and in a read. -/
theorem witness_StepNeverFaultsUnderTheInvariant :
    (waiting (.cmd 0x13)).Inv ∧ (inWindow 40 1000 fo).Inv ∧ (reading .waitHigh 39 9 3 1 fo).Inv := by
  refine ⟨?_, ?_, ?_⟩ <;> constructor <;> decide
/-- An edge that completes a frame, and a look that ends a read. -/
theorem witness_StepKeepsTheInvariant :
    (∃ t, State.Inv { inWindow 39 1000 ⟨0x4C, 0x12, 0x34, 0x92, 0x06⟩ with
        inputs := [⟨false, some (.edge 0x1000003FB)⟩] } ∧
      step { inWindow 39 1000 ⟨0x4C, 0x12, 0x34, 0x92, 0x06⟩ with
        inputs := [⟨false, some (.edge 0x1000003FB)⟩] } = .next t ∧ t.updObj = true) ∧
    (∃ t, State.Inv { reading .waitHigh 39 9 3 0 fb with inputs := [⟨false, some (.poll 0b10)⟩] } ∧
      step { reading .waitHigh 39 9 3 0 fb with inputs := [⟨false, some (.poll 0b10)⟩] } = .next t ∧ t.ack = true) :=
  ⟨⟨_, by constructor <;> decide, rfl, by decide⟩, ⟨_, by constructor <;> decide, rfl, by decide⟩⟩
/-- A flagged temperature, and a step that clears its flag. -/
theorem witness_StepKeepsFlaggedTemperaturesConverted :
    (waiting (.cmd 0x40)).upd .obj = true ∧ (waiting (.cmd 0x40)).FlaggedConverted ∧
    ∃ t, step (waiting (.cmd 0x40)) = .next t ∧ t.upd .obj = false := by
  refine ⟨rfl, ?_, _, rfl, rfl⟩
  intro ch h
  cases ch with
  | obj => exact ⟨0x12, 0x34, by decide⟩
  | env => cases h
theorem witness_StepNeverChangesTheStrap : ∃ t, step (waiting (.cmd 0x20)) = .next t ∧ t.armed = true :=
  ⟨_, rfl, rfl⟩
theorem witness_CommandsStayPendingDuringARead :
    (reading .waitLow 0 0 3 0 f0).phase ≠ .idle ∧
    ∃ t, step { reading .waitLow 0 0 3 0 f0 with
        inputs := [⟨false, some (.cmd 0x40)⟩, ⟨false, some (.poll 0b01)⟩] } = .next t ∧
      t.inputs.filter presentsCommand = [⟨false, some (.cmd 0x40)⟩] :=
  ⟨by decide, _, rfl, by decide⟩
/-- A step that changes the field of each clause: `START`, `EDGE`, two `POLL`s, and `READ`. -/
theorem witness_OnlyTheListedOperationsWriteEachField :
    (∃ t, step { waiting (.cmd 0x20) with bitIndex := 7 } = .next t ∧ t.bitIndex ≠ 7 ∧
      t.armed ≠ (waiting (.cmd 0x20)).armed ∧ t.ack ≠ (waiting (.cmd 0x20)).ack) ∧
    (∃ t, step { inWindow 40 1000 fo with inputs := [⟨false, some (.edge 0x1000003FB)⟩] } = .next t ∧
      t.startTs ≠ 1000 ∧ t.buf ≠ (inWindow 40 1000 fo).buf) ∧
    (∃ t, step { reading .waitLow 0 0 3 0 f0 with inputs := [⟨false, some (.poll 0b01)⟩] } = .next t ∧
      t.phase ≠ .waitLow) ∧
    (∃ t, step { reading .waitHigh 39 8 3 0 fo with inputs := [⟨false, some (.poll 0b10)⟩] } = .next t ∧
      t.attempt ≠ 8 ∧ t.blkBit ≠ 39 ∧ t.got ≠ 0) ∧
    (∃ t, step (waiting (.cmd 0x13)) = .next t ∧ t.req ≠ (waiting (.cmd 0x13)).req) :=
  ⟨⟨_, rfl, by decide⟩, ⟨_, rfl, by decide⟩, ⟨_, rfl, by decide⟩, ⟨_, rfl, by decide⟩, ⟨_, rfl, by decide⟩⟩
theorem witness_OnlyADecodeSetsAFlagOrWritesAValue :
    ∃ t, step { reading .waitHigh 39 0 1 0 fe with inputs := [⟨false, some (.poll 0b10)⟩] } = .next t ∧
      (∀ u, fetch { reading .waitHigh 39 0 1 0 fe with inputs := [⟨false, some (.poll 0b10)⟩] } ≠ .run .reset u) ∧
      (reading .waitHigh 39 0 1 0 fe).upd .env = false ∧ t.upd .env = true :=
  ⟨_, rfl, (fun _ h => by cases h), rfl, by decide⟩
theorem witness_OnlyTheGetterOrResetClearsAFlag :
    ∃ t, step (waiting (.cmd 0x40)) = .next t ∧ (waiting (.cmd 0x40)).upd .obj = true ∧ t.upd .obj = false :=
  ⟨_, rfl, rfl, rfl⟩
/-- A step that performs an operation with a response, and one that performs none. -/
theorem witness_ResponseOfEveryStep :
    (∃ t u, step (waiting (.cmd 0x41)) = .next t ∧ fetch (waiting (.cmd 0x41)) = .run .getE u ∧
      t.rsp = some 0x41BECCCD) ∧
    (∃ t u, step (waiting (.poll 0b01)) = .next t ∧ fetch (waiting (.poll 0b01)) = .hold u) :=
  ⟨⟨_, _, rfl, rfl, rfl⟩, ⟨_, _, rfl, rfl⟩⟩
theorem witness_LiveTickPulsesOncePerPoll :
    (∃ t, step { reading .waitHigh 3 0 3 0 f0 with inputs := [⟨false, some (.poll 0b00)⟩] } = .next t ∧
      t.liveTick = true) ∧
    (∃ t, step (waiting (.cmd 0x41)) = .next t ∧ t.liveTick = false) :=
  ⟨⟨_, rfl, rfl⟩, ⟨_, rfl, rfl⟩⟩

end Sys2Proof.Tests
end

