-- ==== Sys2Proof/Proofs/Scope.lean ====
section
/-! PROOFS. Proofs/Scope.lean: what a step performs (R10, R16, R152, R179), and when it stops (R17, R170): the statements
cited from 00_scope.md. -/

namespace Sys2Proof.Machine

/-! The ports: from the instant that is next to the operation a step performs. -/

theorem Instant.code_of_rst {n : Instant} (h : n.rst = true) : n.code = some .rstPort := if_pos h

theorem Instant.code_of_event {n : Instant} {e : Event} (hr : n.rst = false) (he : n.event = some e) :
    n.code = some (.event e) := by
  simp [Instant.code, hr, he]

theorem Instant.code_eq_event_iff {n : Instant} {e : Event} : n.code = some (.event e) ↔ n = ⟨false, some e⟩ := by
  obtain ⟨_ | _, _ | e'⟩ := n <;> simp [Instant.code]

/-- A step performs the operation that the code of the next instant decodes to (R10). -/
theorem step_of_presentsNext {s : State} {n : Instant} {rest : List Instant} {c : Code} {i : Instr}
    (hn : PresentsNext s n rest) (hc : n.code = some c) (hd : decode s.phase c = .ok i) :
    step s = exec i (s.accept rest) := by
  have hf : fetch s = .run i (s.accept rest) := by
    simp only [fetch, nextInstant_of_presentsNext hn, hc, hd]
  simp only [step, hf]

/-- Settles O43: both clauses are `step_of_presentsNext`, at the code of the `rst` port and at that of an event. -/
theorem stepRunsTheDecodedOperation : Obligations.StepRunsTheDecodedOperation := by
  intro s n rest hn
  exact ⟨fun hr => step_of_presentsNext hn (Instant.code_of_rst hr) rfl,
    fun e i hr he hd => step_of_presentsNext hn (Instant.code_of_event hr he) hd⟩

/-! The meanings: what each can answer. -/

/-- A command that always completes answers a next state, accepted or waiting (R152). -/
theorem whenReady_next (cw : CommandWord) (s u : State) : ∃ t, whenReady cw s (.next u) = .next t := by
  obtain ⟨_, h⟩ | ⟨_, h⟩ := whenReady_cases cw s (.next u)
  · exact ⟨_, h⟩
  · exact ⟨_, h⟩

/-- `READ` completes or waits, and is refused only when accepted inside a window (R149, R152). -/
theorem execRead_cases (m : Mask) (s : State) :
    (∃ t, execRead m s = .next t) ∨ (s.phase = .idle ∧ s.armed = true ∧ execRead m s = .refused .readWhileArmed) := by
  unfold execRead
  cases ha : s.armed
  · exact .inl (whenReady_next ..)
  · obtain ⟨hp, h⟩ | ⟨_, h⟩ := whenReady_cases (commandWord 0x1 m) s (.refused .readWhileArmed)
    · exact .inr ⟨hp, rfl, h⟩
    · exact .inl ⟨_, h⟩

/-- The buffer byte of a bit position exists exactly below position 40 (R34, R74). -/
theorem five_le_byteIndex_iff (p : BitVec 6) : 5 ≤ (byteIndex p).toNat ↔ 40 ≤ p.toNat := by
  rw [byteIndex_toNat]
  omega

/-- `EDGE` completes, unless the position to fill lies past the frame (R122). -/
theorem execEdge_cases (d : Level) (tm : Millis) (s : State) :
    (∃ t, execEdge d tm s = .next t) ∨
    (40 ≤ (edgeRestart tm s).bitIndex.toNat ∧ ∃ f, execEdge d tm s = .fault f) := by
  unfold execEdge
  cases s.armed
  · exact .inl ⟨s, rfl⟩
  · obtain ⟨_, h⟩ | ⟨h5, h⟩ := shiftIn_cases (byteIndex (edgeRestart tm s).bitIndex) d (edgeRestart tm s)
    · exact .inl ⟨_, by simp only [h, if_true]; rfl⟩
    · exact .inr ⟨(five_le_byteIndex_iff _).mp h5, _, by simp only [h, if_true]; rfl⟩

/-- `POLL` in phase `WAIT_LOW` completes, unless the position to fill lies past the frame (R142). -/
theorem execPollWaitLow_cases (c d : Level) (s : State) :
    (∃ t, execPollWaitLow c d s = .next t) ∨
    (40 ≤ s.blkBit.toNat ∧ ∃ f, execPollWaitLow c d s = .fault f) := by
  unfold execPollWaitLow
  split_ifs
  · obtain ⟨_, h⟩ | ⟨h5, h⟩ := shiftIn_cases (byteIndex s.blkBit) d s.tick
    · exact .inl ⟨_, by rw [h]⟩
    · exact .inr ⟨(five_le_byteIndex_iff _).mp h5, _, by rw [h]⟩
  · exact .inl ⟨_, rfl⟩
  · exact .inl ⟨_, rfl⟩

theorem execPollWaitHigh_next (c d : Level) (s : State) : ∃ t, execPollWaitHigh c d s = .next t := by
  unfold execPollWaitHigh
  split_ifs
  · exact ⟨_, rfl⟩
  · exact ⟨_, rfl⟩
  · exact ⟨_, rfl⟩
  · exact ⟨_, rfl⟩

/-- `SHIFT` completes, or faults outside the buffer (R34, R100). -/
theorem execShift_cases (j : BitVec 3) (d : Level) (s : State) :
    (∃ t, execShift j d s = .next t) ∨ ∃ f, execShift j d s = .fault f := by
  unfold execShift
  obtain ⟨_, h⟩ | ⟨_, h⟩ := shiftIn_cases j d s
  · exact .inl ⟨_, by rw [h]⟩
  · exact .inr ⟨_, by rw [h]⟩

/-- Everything a meaning can answer: a next state; the refusal of a `READ` inside a window; or the fault of a bit that
goes outside the buffer, from `SHIFT`, `EDGE` or `POLL` (R17, R34, R149). -/
theorem exec_cases (i : Instr) (s : State) :
    (∃ t, exec i s = .next t) ∨
    (s.phase = .idle ∧ s.armed = true ∧ (∃ m, i = .read m) ∧ exec i s = .refused .readWhileArmed) ∨
    (((∃ j d, i = .shift j d) ∨ (∃ d tm, i = .edge d tm ∧ 40 ≤ (edgeRestart tm s).bitIndex.toNat) ∨
        ((∃ c d, i = .pollWaitLow c d) ∧ 40 ≤ s.blkBit.toNat)) ∧
      ∃ f, exec i s = .fault f) := by
  cases i with
  | read m =>
    obtain h | ⟨hp, ha, h⟩ := execRead_cases m s
    · exact .inl h
    · exact .inr (.inl ⟨hp, ha, ⟨m, rfl⟩, h⟩)
  | start => exact .inl (whenReady_next ..)
  | endConv => exact .inl (whenReady_next ..)
  | getO => exact .inl (whenReady_next ..)
  | getE => exact .inl (whenReady_next ..)
  | peekO => exact .inl (whenReady_next ..)
  | peekE => exact .inl (whenReady_next ..)
  | edge d tm =>
    obtain h | ⟨h40, h⟩ := execEdge_cases d tm s
    · exact .inl h
    · exact .inr (.inr ⟨.inr (.inl ⟨d, tm, rfl, h40⟩), h⟩)
  | pollWaitLow c d =>
    obtain h | ⟨h40, h⟩ := execPollWaitLow_cases c d s
    · exact .inl h
    · exact .inr (.inr ⟨.inr (.inr ⟨⟨c, d, rfl⟩, h40⟩), h⟩)
  | pollWaitHigh c d => exact .inl (execPollWaitHigh_next c d s)
  | shift j d =>
    obtain h | h := execShift_cases j d s
    · exact .inl h
    · exact .inr (.inr ⟨.inl ⟨j, d, rfl⟩, h⟩)
  | validate | objFrame | envFrame | checksum | terminator | classify | convert | reset => exact .inl ⟨_, rfl⟩

/-- The one refusal of a meaning (R149). -/
theorem exec_refused {i : Instr} {s : State} {r : Refusal} (h : exec i s = .refused r) :
    s.phase = .idle ∧ s.armed = true ∧ (∃ m, i = .read m) ∧ r = .readWhileArmed := by
  obtain ⟨t, h'⟩ | ⟨hp, ha, hi, h'⟩ | ⟨_, f, h'⟩ := exec_cases i s <;> rw [h'] at h <;> cases h
  exact ⟨hp, ha, hi, rfl⟩

/-- The faults of a meaning: the stops of `SHIFT`, `EDGE` and `POLL` outside the buffer (R34). -/
theorem exec_fault {i : Instr} {s : State} {f : Fault} (h : exec i s = .fault f) :
    (∃ j d, i = .shift j d) ∨ (∃ d tm, i = .edge d tm ∧ 40 ≤ (edgeRestart tm s).bitIndex.toNat) ∨
      ((∃ c d, i = .pollWaitLow c d) ∧ 40 ≤ s.blkBit.toNat) := by
  obtain ⟨t, h'⟩ | ⟨_, _, _, h'⟩ | ⟨hi, _⟩ := exec_cases i s
  · rw [h'] at h; cases h
  · rw [h'] at h; cases h
  · exact hi

/-! Refusals of a step. -/

/-- A command is taken only by a ready block, and then it was presented first (R152). -/
theorem nextInstant_command {s : State} {cw : CommandWord} {rest : List Instant}
    (h : nextInstant s.cmdReady s.inputs = some (⟨false, some (.cmd cw)⟩, rest)) :
    s.phase = .idle ∧ s.inputs = ⟨false, some (.cmd cw)⟩ :: rest := by
  cases hr : s.cmdReady <;> rw [hr] at h
  · exact absurd (nextInstant_busy _ _ _ h).1 (by simp [presentsCommand])
  · exact ⟨(State.cmdReady_iff s).mp hr, nextInstant_ready _ _ _ h⟩

/-- A reserved word is found only by a ready block to which it is presented first (R82). -/
theorem fetch_reserved {s : State} {cw : CommandWord} (h : fetch s = .reserved cw) :
    s.phase = .idle ∧ decodeCommand cw = .error (.reservedCommand cw) ∧
      ∃ rest, s.inputs = ⟨false, some (.cmd cw)⟩ :: rest := by
  obtain ⟨_, h'⟩ | ⟨n, rest, hn, h' | ⟨_, _, _, _, h'⟩ | ⟨_, rfl, hd, h'⟩⟩ := fetch_cases s <;> rw [h'] at h <;> cases h
  obtain ⟨hp, hi⟩ := nextInstant_command hn
  exact ⟨hp, hd, rest, hi⟩

/-- Only a command word decodes to `READ` (R76, R80). -/
theorem decode_eq_read {ph : Phase} {c : Code} {m : Mask} (h : decode ph c = .ok (.read m)) :
    ∃ cw, c = .event (.cmd cw) := by
  cases c with
  | rstPort => cases h
  | internal => cases h
  | frame w =>
    simp only [decode, decodeFrame] at h
    split at h <;> cases h
  | event e =>
    cases e with
    | cmd cw => exact ⟨cw, rfl⟩
    | edge e => cases h
    | poll l => cases ph <;> cases h

/-- A `READ` is fetched only by a ready block to which its command word is presented first (R140, R152). -/
theorem fetch_read {s u : State} {m : Mask} (h : fetch s = .run (.read m) u) :
    s.phase = .idle ∧ ∃ cw rest, u = s.accept rest ∧ s.inputs = ⟨false, some (.cmd cw)⟩ :: rest ∧
      decode s.phase (.event (.cmd cw)) = .ok (.read m) := by
  obtain ⟨_, h'⟩ | ⟨n, rest, hn, h' | ⟨c, _, hc, hd, h'⟩ | ⟨_, _, _, h'⟩⟩ := fetch_cases s <;> rw [h'] at h <;> cases h
  obtain ⟨cw, rfl⟩ := decode_eq_read hd
  obtain rfl := Instant.code_eq_event_iff.mp hc
  obtain ⟨hp, hi⟩ := nextInstant_command hn
  exact ⟨hp, cw, rest, rfl, hi, hd⟩

/-- Settles O47: a refused step found a reserved word, or ran an operation that is refused, which is a `READ`. -/
theorem stepRefusesOnlyTheTwoCases : Obligations.StepRefusesOnlyTheTwoCases := by
  intro s r h
  obtain ⟨cw, hf, rfl⟩ | ⟨i, u, hf, hx⟩ := step_refused_cases h
  · obtain ⟨hp, hd, rest, hi⟩ := fetch_reserved hf
    refine ⟨hp, .inl ⟨cw, rest, rfl, hf, hi, fun ph i hok => ?_⟩⟩
    have hok' : decodeCommand cw = .ok i := hok
    rw [hd] at hok'
    cases hok'
  · obtain ⟨_, ha, ⟨m, rfl⟩, rfl⟩ := exec_refused hx
    obtain ⟨hp, cw, rest, rfl, hi, hd⟩ := fetch_read hf
    exact ⟨hp, .inr ⟨rfl, ha, m, cw, rest, hi, hd, hf⟩⟩

/-! Faults of a step. -/

/-- After step 1 of `EDGE` there is room for the bit (R38, R122). -/
theorem edgeRestart_bitIndex_lt {s : State} (tm : Millis) (h : s.bitIndex.toNat ≤ 40) :
    (edgeRestart tm s).bitIndex.toNat < 40 := by
  obtain ⟨_, hr⟩ | ⟨_, _, hr⟩ | ⟨h40, _, hr⟩ := edgeRestart_cases tm s <;> rw [hr]
  · simp
  · simp
  · omega

/-- Settles O48: no port asks for `SHIFT`, and under R38 the bit positions of `EDGE` and `POLL` lie in the buffer. -/
theorem stepNeverFaultsUnderTheInvariant : Obligations.StepNeverFaultsUnderTheInvariant := by
  intro s f hinv h
  obtain ⟨i, u, hf, hx⟩ := step_fault_cases h
  obtain ⟨⟨rest, rfl⟩, hport⟩ := fetch_run_cases hf
  obtain ⟨j, d, rfl⟩ | ⟨d, tm, rfl, h40⟩ | ⟨_, h40⟩ := exec_fault hx
  · simp at hport
  · exact absurd (edgeRestart_bitIndex_lt tm (s := s.accept rest) hinv.bitIndex_le) (Nat.not_lt.mpr h40)
  · exact absurd (hinv.blkBit_le.trans_lt (by decide : 39 < 40)) (Nat.not_lt.mpr h40)

end Sys2Proof.Machine
end

/-! PROOFS. Proofs/State.lean: what every step keeps of the state (R32, R38), and which operations write each part of it
(R21 to R33, R67): the statements cited from 10_state.md. -/

namespace Sys2Proof.Machine

/-! What an operation of the ports has done: `command_next`, `edge_next`, `pollWaitLow_next`, `pollWaitHigh_next` and
`endAttempt_next` put together, so that each statement about every step is one case split. -/

/-- One bit into the byte of its position, and counted: `EDGE` steps 2 and 3 without the decode (R122). -/
def State.takeBit (s : State) (d : Level) : State :=
  { s with
    buf := s.buf.put (byteIndex s.bitIndex).toNat (shiftByte (s.buf.get (byteIndex s.bitIndex).toNat) d)
    bitIndex := s.bitIndex + 1 }

/-- One bit into the byte of its position: the sample `POLL` takes in phase `WAIT_LOW` (R142). -/
def State.sampleBit (s : State) (d : Level) : State :=
  { s with
    buf := s.buf.put (byteIndex s.blkBit).toNat (shiftByte (s.buf.get (byteIndex s.blkBit).toNat) d)
    phase := .waitHigh }

/-- What `EDGE` step 1 leaves (R122). -/
def Restarted (tm : Millis) (s u : State) : Prop :=
  u = s ∨ u = s.clearAccumulator tm ∨ u = (s.raise .acquisitionTimeout).clearAccumulator tm

/-- The buffer is validated and the result mask gathered; nothing else is written but the record of conditions (R143). -/
def Gathered (s u : State) : Prop :=
  Validated s.frame s u ∧ ∃ xo xe uo ue r, u =
    { s with xObj := xo, xEnv := xe, updObj := uo, updEnv := ue, raised := r, got := s.got ||| frameMask s.frame }

/-- `PortEffect s i t`: performing the operation `i`, which a port selects in `s`, leaves `t`. -/
inductive PortEffect (s : State) : Instr → State → Prop
  | readStarts (m : Mask) : s.armed = false →
      PortEffect s (.read m)
        { s with ack := false, req := m, got := 0, attempt := 0, blkBit := 0, phase := .waitLow }
  | windowOpens : s.phase = .idle → s.edgeCapable = true →
      PortEffect s .start ({ s with armed := true, bitIndex := 0, ack := false }.respond 1)
  | startFails : PortEffect s .start ((s.raise .unsupportedInterruptPin).respond 0)
  | windowCloses : s.phase = .idle → PortEffect s .endConv ({ s with ack := true, armed := false }.respond 0)
  | endDoesNothing : PortEffect s .endConv (s.respond 0)
  | gets (ch : Channel) : PortEffect s (getter ch) (readAndAcknowledge ch s)
  | peeks (ch : Channel) : PortEffect s (peeker ch) (s.respond (peekFlag ch s))
  | edgeLost (d : Level) (tm : Millis) : PortEffect s (.edge d tm) s
  | edgeCounts (d : Level) (tm : Millis) (u : State) : Restarted tm s u → u.bitIndex.toNat < 40 →
      PortEffect s (.edge d tm) (u.takeBit d)
  | edgeDecodes (d : Level) (tm : Millis) (u : State) : Restarted tm s u → u.bitIndex.toNat < 40 →
      PortEffect s (.edge d tm) (validateBuffer (u.takeBit d)).1
  | lowAwaited (c d : Level) : PortEffect s (.pollWaitLow c d) s.tick
  | bitSampled (c d : Level) : s.phase = .waitLow → (byteIndex s.blkBit).toNat < 5 →
      PortEffect s (.pollWaitLow c d) (s.tick.sampleBit d)
  | highAwaited (c d : Level) : PortEffect s (.pollWaitHigh c d) s.tick
  | bitEnds (c d : Level) : s.phase = .waitHigh → s.blkBit.toNat < 39 →
      PortEffect s (.pollWaitHigh c d) { s.tick with blkBit := s.blkBit + 1, phase := .waitLow }
  | readEnds (c d : Level) (u : State) : s.phase = .waitHigh → Gathered s.tick u →
      PortEffect s (.pollWaitHigh c d) (finishRead u)
  | attemptFails (c d : Level) (u : State) : s.phase = .waitHigh → s.attempt.toNat ≠ 9 → Gathered s.tick u →
      PortEffect s (.pollWaitHigh c d) (nextAttempt u)
  | resets : PortEffect s .reset s.afterReset

theorem portEffect_of_command {i : Instr} {s t : State} (hp : s.phase = .idle) (h : exec i s = .next t)
    (hi : (∃ m, i = .read m) ∨ i = .start ∨ i = .endConv ∨ i = .getO ∨ i = .getE ∨ i = .peekO ∨ i = .peekE) :
    PortEffect s i t := by
  obtain ⟨m, rfl, ha, rfl⟩ | ⟨rfl, ⟨hc, rfl⟩ | ⟨_, rfl⟩⟩ | ⟨rfl, ⟨_, rfl⟩ | ⟨_, rfl⟩⟩ | ⟨ch, rfl, rfl⟩ |
    ⟨ch, rfl, rfl⟩ := command_next hp h hi
  · exact .readStarts m ha
  · exact .windowOpens hp hc
  · exact .startFails
  · exact .windowCloses hp
  · exact .endDoesNothing
  · exact .gets ch
  · exact .peeks ch

theorem portEffect_of_edge {d : Level} {tm : Millis} {s t : State} (h : exec (.edge d tm) s = .next t) :
    PortEffect s (.edge d tm) t := by
  obtain ⟨_, rfl⟩ | ⟨_, u, b, hr, _, h5, rfl, ht⟩ := edge_next h
  · exact .edgeLost d tm
  · have hlt : u.bitIndex.toNat < 40 :=
      Nat.lt_of_not_le fun h40 => Nat.not_le.mpr h5 ((five_le_byteIndex_iff _).mpr h40)
    obtain rfl | ⟨_, rfl⟩ := ht
    · exact .edgeCounts d tm u hr hlt
    · exact .edgeDecodes d tm u hr hlt

theorem portEffect_of_pollWaitLow {c d : Level} {s t : State} (hp : s.phase = .waitLow)
    (h : exec (.pollWaitLow c d) s = .next t) : PortEffect s (.pollWaitLow c d) t := by
  obtain ⟨hn, _⟩ | ⟨_, rfl | ⟨h5, rfl⟩⟩ := pollWaitLow_next h
  · exact absurd hp hn
  · exact .lowAwaited c d
  · exact .bitSampled c d hp h5

theorem portEffect_of_pollWaitHigh {c d : Level} {s t : State} (hp : s.phase = .waitHigh)
    (h : exec (.pollWaitHigh c d) s = .next t) : PortEffect s (.pollWaitHigh c d) t := by
  obtain ⟨hn, _⟩ | ⟨_, rfl | ⟨h39, rfl⟩ | ⟨_, rfl⟩⟩ := pollWaitHigh_next h
  · exact absurd hp hn
  · exact .highAwaited c d
  · exact .bitEnds c d hp h39
  · obtain ⟨xo, xe, uo, ue, r, u, hu, hv, he⟩ := endAttempt_next s.tick
    have hg : Gathered s.tick u := ⟨hv, xo, xe, uo, ue, r, hu⟩
    obtain he | ⟨h9, he⟩ := he <;> rw [he]
    · exact .readEnds c d u hp hg
    · exact .attemptFails c d u hp h9 hg

/-- Everything a step that answers a next state has done: it takes what is not performed from the inputs, or performs
one operation of the ports. -/
theorem step_next_effect {s t : State} (h : step s = .next t) :
    (∃ rest, t = s.accept rest) ∨ ∃ i rest, fetch s = .run i (s.accept rest) ∧ PortEffect (s.accept rest) i t := by
  obtain ⟨_, rfl | ⟨rest, rfl⟩⟩ | ⟨i, u, hf, hx⟩ := step_next_cases h
  · exact .inl ⟨s.inputs, rfl⟩
  · exact .inl ⟨rest, rfl⟩
  · obtain ⟨⟨rest, rfl⟩, hport⟩ := fetch_run_cases hf
    refine .inr ⟨i, rest, hf, ?_⟩
    obtain ⟨hp, hi⟩ | ⟨d, tm, rfl⟩ | ⟨hp, c, d, rfl⟩ | ⟨hp, c, d, rfl⟩ | rfl := hport
    · exact portEffect_of_command hp hx hi
    · exact portEffect_of_edge hx
    · exact portEffect_of_pollWaitLow hp hx
    · exact portEffect_of_pollWaitHigh hp hx
    · cases hx
      exact .resets

/-! The invariant of R38, under each update of the state. -/

section Invariant

variable {s u : State}

theorem State.Inv.accept (h : s.Inv) (rest : List Instant) : (s.accept rest).Inv := { h with }

theorem State.Inv.respond (h : s.Inv) (v : Word32) : (s.respond v).Inv := { h with }

theorem State.Inv.raise (h : s.Inv) (c : Condition) : (s.raise c).Inv := { h with }

theorem State.Inv.tick (h : s.Inv) : s.tick.Inv := { h with }

theorem State.Inv.readAndAcknowledge (h : s.Inv) (ch : Channel) : (readAndAcknowledge ch s).Inv := by
  cases ch <;> exact { h with }

theorem State.Inv.clearAccumulator (h : s.Inv) (tm : Millis) : (s.clearAccumulator tm).Inv :=
  { h with canonical := rfl, bitIndex_le := Nat.zero_le 40 }

theorem State.Inv.restarted {tm : Millis} (h : s.Inv) (hr : Restarted tm s u) : u.Inv := by
  obtain rfl | rfl | rfl := hr
  · exact h
  · exact h.clearAccumulator tm
  · exact (h.raise _).clearAccumulator tm

theorem State.Inv.takeBit (h : s.Inv) (d : Level) (hlt : s.bitIndex.toNat < 40) : (s.takeBit d).Inv :=
  { h with
    canonical := Memory.put_wf _ h.canonical
      (Nat.lt_of_not_le fun h5 => Nat.not_le.mpr hlt ((five_le_byteIndex_iff _).mp h5))
    bitIndex_le := by
      change (s.bitIndex + 1).toNat ≤ 40
      bv_omega }

theorem State.Inv.validateFrame (h : s.Inv) (f : Frame) : (validateFrame f s).1.Inv := by
  obtain ⟨xo, xe, uo, ue, r, he⟩ := validateFrame_frame f s
  rw [he]
  exact { h with }

theorem State.Inv.sampleBit (h : s.Inv) (d : Level) (hp : s.phase = .waitLow) (h5 : (byteIndex s.blkBit).toNat < 5) :
    (s.sampleBit d).Inv :=
  { h with
    canonical := Memory.put_wf _ h.canonical h5
    reading := fun _ => h.reading (by simp [hp])
    outside := fun _ hi => by cases hi }

theorem State.Inv.gathered (h : s.Inv) (hg : Gathered s u) : u.Inv := by
  obtain ⟨_, xo, xe, uo, ue, r, rfl⟩ := hg
  exact { h with }

theorem State.Inv.bitEnds (h : s.Inv) (hp : s.phase = .waitHigh) (hlt : s.blkBit.toNat < 39) :
    State.Inv { s with blkBit := s.blkBit + 1, phase := .waitLow } :=
  { h with
    blkBit_le := by
      change (s.blkBit + 1).toNat ≤ 39
      bv_omega
    reading := fun _ => h.reading (by simp [hp])
    outside := fun _ hi => by cases hi }

/-- The read that ends had the line LOW and no window, so driving the line HIGH leaves the block idle as R38 asks. -/
theorem State.Inv.finishRead (h : s.Inv) (hp : s.phase = .waitHigh) : (finishRead s).Inv :=
  have hclosed : s.armed = false := (h.reading (by simp [hp])).2
  { h with
    reading := fun hn => absurd rfl hn
    window := fun ha => absurd (hclosed.symm.trans ha) (by decide)
    outside := fun _ _ => rfl }

theorem State.Inv.nextAttempt (h : s.Inv) (hp : s.phase = .waitHigh) (h9 : s.attempt.toNat ≠ 9) :
    (nextAttempt s).Inv :=
  { h with
    attempt_le := by
      change (s.attempt + 1).toNat ≤ 9
      have hle := h.attempt_le
      bv_omega
    blkBit_le := Nat.zero_le 39
    reading := fun _ => h.reading (by simp [hp])
    outside := fun _ hi => by cases hi }

theorem State.Inv.readStarts (h : s.Inv) (m : Mask) (ha : s.armed = false) :
    State.Inv { s with ack := false, req := m, got := 0, attempt := 0, blkBit := 0, phase := .waitLow } :=
  { h with
    attempt_le := Nat.zero_le 9
    blkBit_le := Nat.zero_le 39
    reading := fun _ => ⟨rfl, ha⟩
    window := fun h1 => absurd (ha.symm.trans h1) (by decide)
    outside := fun _ hi => by cases hi }

theorem State.Inv.windowOpens (h : s.Inv) (hp : s.phase = .idle) (hc : s.edgeCapable = true) :
    State.Inv { s with armed := true, bitIndex := 0, ack := false } :=
  { h with
    bitIndex_le := Nat.zero_le 40
    reading := fun hn => absurd hp hn
    window := fun _ => ⟨rfl, hc⟩
    outside := fun ha => by cases ha }

theorem State.Inv.windowCloses (h : s.Inv) (hp : s.phase = .idle) :
    State.Inv { s with ack := true, armed := false } :=
  { h with
    reading := fun hn => absurd hp hn
    window := fun ha => by cases ha
    outside := fun _ _ => rfl }

/-- `RESET` establishes the invariant from any state (R36, R38). -/
theorem State.afterReset_inv (s : State) : s.afterReset.Inv where
  canonical := rfl
  bitIndex_le := Nat.zero_le 40
  attempt_le := Nat.zero_le 9
  blkBit_le := Nat.zero_le 39
  reading := fun hn => absurd rfl hn
  window := fun ha => by cases ha
  outside := fun _ _ => rfl

theorem Gathered.phase_eq (hg : Gathered s u) : u.phase = s.phase := by
  obtain ⟨_, _, _, _, _, _, rfl⟩ := hg
  rfl

theorem Gathered.attempt_eq (hg : Gathered s u) : u.attempt = s.attempt := by
  obtain ⟨_, _, _, _, _, _, rfl⟩ := hg
  rfl

theorem PortEffect.inv {i : Instr} {t : State} (h : PortEffect s i t) (hs : s.Inv) : t.Inv := by
  cases h with
  | readStarts m ha => exact hs.readStarts m ha
  | windowOpens hp hc => exact (hs.windowOpens hp hc).respond 1
  | startFails => exact (hs.raise _).respond 0
  | windowCloses hp => exact (hs.windowCloses hp).respond 0
  | endDoesNothing => exact hs.respond 0
  | gets ch => exact hs.readAndAcknowledge ch
  | peeks ch => exact hs.respond _
  | edgeLost => exact hs
  | edgeCounts d tm u hr hlt => exact (hs.restarted hr).takeBit d hlt
  | edgeDecodes d tm u hr hlt => exact ((hs.restarted hr).takeBit d hlt).validateFrame _
  | lowAwaited => exact hs.tick
  | bitSampled c d hp h5 => exact hs.tick.sampleBit d hp h5
  | highAwaited => exact hs.tick
  | bitEnds c d hp hlt => exact hs.tick.bitEnds hp hlt
  | readEnds c d u hp hg => exact (hs.tick.gathered hg).finishRead (hg.phase_eq.trans hp)
  | attemptFails c d u hp h9 hg =>
    exact (hs.tick.gathered hg).nextAttempt (hg.phase_eq.trans hp) (hg.attempt_eq ▸ h9)
  | resets => exact s.afterReset_inv

end Invariant

/-- Settles O49: taking an instant keeps the invariant, and so does every operation a port selects. -/
theorem stepKeepsTheInvariant : Obligations.StepKeepsTheInvariant := by
  intro s t hs h
  obtain ⟨rest, rfl⟩ | ⟨i, rest, _, he⟩ := step_next_effect h
  · exact hs.accept rest
  · exact he.inv (hs.accept rest)

/-! The channel register file: what becomes of one entry in a step. -/

/-- The buffer holds a VALID frame of the channel, and the channel's entry its temperature, flagged (R26, R28, R106). -/
def Decoded (ch : Channel) (t : State) : Prop :=
  updates t.frame ch ∧ t.x ch = convertBytes t.frame.magHi t.frame.magLo ∧ t.upd ch = true

theorem Restarted.sameEntry {tm : Millis} {s u : State} (h : Restarted tm s u) (ch : Channel) : SameEntry ch s u := by
  obtain rfl | rfl | rfl := h
  · exact ⟨rfl, rfl⟩
  · exact ⟨by simp, by simp⟩
  · exact ⟨by simp, by simp⟩

/-- What `VALIDATE` on the frame in the buffer makes of one entry: it is as before, or decoded from that frame. -/
theorem Validated.sameEntry_or_decoded {f : Frame} {s t : State} (h : Validated f s t) (hf : t.frame = f)
    (ch : Channel) : SameEntry ch s t ∨ Decoded ch t := by
  subst hf
  by_cases hu : updates t.frame ch
  · exact .inr ⟨hu, (h ch).1 hu⟩
  · exact .inl ((h ch).2 hu)

theorem Gathered.sameEntry_or_decoded {s u : State} (h : Gathered s u) (ch : Channel) :
    SameEntry ch s u ∨ Decoded ch u := by
  obtain ⟨hv, _, _, _, _, _, rfl⟩ := h
  exact hv.sameEntry_or_decoded rfl ch

theorem validateBuffer_sameEntry_or_decoded (s : State) (ch : Channel) :
    SameEntry ch s (validateBuffer s).1 ∨ Decoded ch (validateBuffer s).1 := by
  refine (validateFrame_validated s.frame s).sameEntry_or_decoded ?_ ch
  obtain ⟨_, _, _, _, _, he⟩ := validateFrame_frame s.frame s
  rw [he]
  rfl

/-- Everything an operation of the ports can do to one entry of the register file (R67): leave it, decode a frame into
it, or clear its flag, which only the channel's getter does without touching the value, and `RESET`. -/
theorem PortEffect.entry {s t : State} {i : Instr} (h : PortEffect s i t) (ch : Channel) :
    SameEntry ch s t ∨ Decoded ch t ∨ (i = getter ch ∧ t.x ch = s.x ch ∧ t.upd ch = false) ∨
      (i = .reset ∧ t.upd ch = false) := by
  cases h with
  | readStarts | windowOpens | startFails | windowCloses | endDoesNothing | peeks | edgeLost | lowAwaited | bitSampled |
    highAwaited | bitEnds => exact .inl ⟨rfl, rfl⟩
  | gets ch' =>
    by_cases hc : ch = ch'
    · subst hc
      exact .inr (.inr (.inl ⟨rfl, by simp [readAndAcknowledge_eq], by simp [readAndAcknowledge_eq]⟩))
    · exact .inl ⟨by simp [readAndAcknowledge_eq], by simp [readAndAcknowledge_eq, hc]⟩
  | edgeCounts d tm u hr =>
    obtain ⟨hx, hu⟩ := hr.sameEntry ch
    exact .inl ⟨hx, hu⟩
  | edgeDecodes d tm u hr =>
    obtain ⟨hxr, hur⟩ := hr.sameEntry ch
    obtain ⟨hx, hu⟩ | hd := validateBuffer_sameEntry_or_decoded (u.takeBit d) ch
    · exact .inl ⟨hx.trans hxr, hu.trans hur⟩
    · exact .inr (.inl hd)
  | readEnds c d u _ hg =>
    obtain ⟨hx, hu⟩ | hd := hg.sameEntry_or_decoded ch
    · exact .inl ⟨hx, hu⟩
    · exact .inr (.inl hd)
  | attemptFails c d u _ _ hg =>
    obtain ⟨hx, hu⟩ | hd := hg.sameEntry_or_decoded ch
    · exact .inl ⟨hx, hu⟩
    · exact .inr (.inl hd)
  | resets => exact .inr (.inr (.inr ⟨rfl, by cases ch <;> rfl⟩))

/-- Everything a step can do to one entry of the register file (R67). -/
theorem step_entry {s t : State} (h : step s = .next t) (ch : Channel) :
    SameEntry ch s t ∨ Decoded ch t ∨ (∃ u, fetch s = .run (getter ch) u ∧ t.x ch = s.x ch ∧ t.upd ch = false) ∨
      ∃ u, fetch s = .run .reset u ∧ t.upd ch = false := by
  obtain ⟨rest, rfl⟩ | ⟨i, rest, hf, he⟩ := step_next_effect h
  · exact .inl ⟨rfl, rfl⟩
  · obtain ⟨hx, hu⟩ | hd | ⟨rfl, hx, hu⟩ | ⟨rfl, hu⟩ := he.entry ch
    · exact .inl ⟨hx, hu⟩
    · exact .inr (.inl hd)
    · exact .inr (.inr (.inl ⟨_, hf, hx, hu⟩))
    · exact .inr (.inr (.inr ⟨_, hf, hu⟩))

/-- Settles O50: an entry flagged after the step was flagged before it with the same value, or was just decoded. -/
theorem stepKeepsFlaggedTemperaturesConverted : Obligations.StepKeepsFlaggedTemperaturesConverted := by
  intro s t hs h ch hflag
  obtain ⟨hx, hu⟩ | ⟨_, hx, _⟩ | ⟨_, _, _, hu⟩ | ⟨_, _, hu⟩ := step_entry h ch
  · rw [hx]
    exact hs ch (hu ▸ hflag)
  · exact ⟨_, _, hx⟩
  · simp [hu] at hflag
  · simp [hu] at hflag

/-- Settles O54: of what a step can do to an entry, only the decode and `RESET` set a flag or change a value. -/
theorem onlyADecodeSetsAFlagOrWritesAValue : Obligations.OnlyADecodeSetsAFlagOrWritesAValue := by
  intro s t ch h hreset hw
  obtain ⟨hx, hu⟩ | hd | ⟨_, _, hx, hu⟩ | ⟨u, hf, _⟩ := step_entry h ch
  · simp [hx, hu] at hw
  · exact hd
  · simp [hx, hu] at hw
  · exact absurd hf (hreset u)

/-- Settles O55: of what a step can do to an entry, only the channel's getter and `RESET` clear a flag. -/
theorem onlyTheGetterOrResetClearsAFlag : Obligations.OnlyTheGetterOrResetClearsAFlag := by
  intro s t ch h hset hclear
  obtain ⟨_, hu⟩ | ⟨_, _, hu⟩ | ⟨u, hf, _⟩ | ⟨u, hf, _⟩ := step_entry h ch
  · simp [hu, hset] at hclear
  · simp [hu] at hclear
  · exact ⟨_, u, hf, .inl rfl⟩
  · exact ⟨_, u, hf, .inr rfl⟩

/-! Who writes the other fields. -/

/-- What an operation of the ports may write, field by field (R21 to R33, R67); the strap it never writes (R32). -/
structure WritesOnlyItsFields (i : Instr) (s t : State) : Prop where
  bitIndex : t.bitIndex ≠ s.bitIndex → i = .start ∨ i = .reset ∨ ∃ d tm, i = .edge d tm
  startTs : t.startTs ≠ s.startTs → i = .reset ∨ ∃ d tm, i = .edge d tm
  buf : t.buf ≠ s.buf → i = .reset ∨ (∃ d tm, i = .edge d tm) ∨ ∃ c d, i = .pollWaitLow c d
  armed : t.armed ≠ s.armed → i = .start ∨ i = .endConv ∨ i = .reset
  ack : t.ack ≠ s.ack →
    i = .start ∨ i = .endConv ∨ i = .reset ∨ (∃ m, i = .read m) ∨ ∃ c d, i = .pollWaitHigh c d
  phase : t.phase ≠ s.phase →
    i = .reset ∨ (∃ m, i = .read m) ∨ (∃ c d, i = .pollWaitLow c d) ∨ ∃ c d, i = .pollWaitHigh c d
  attempt : t.attempt ≠ s.attempt → i = .reset ∨ (∃ m, i = .read m) ∨ ∃ c d, i = .pollWaitHigh c d
  blkBit : t.blkBit ≠ s.blkBit → i = .reset ∨ (∃ m, i = .read m) ∨ ∃ c d, i = .pollWaitHigh c d
  req : t.req ≠ s.req → i = .reset ∨ ∃ m, i = .read m
  got : t.got ≠ s.got → i = .reset ∨ (∃ m, i = .read m) ∨ ∃ c d, i = .pollWaitHigh c d
  strap : t.edgeCapable = s.edgeCapable

theorem PortEffect.writesOnlyItsFields {s t : State} {i : Instr} (h : PortEffect s i t) :
    WritesOnlyItsFields i s t := by
  cases h with
  | readStarts | windowOpens | startFails | windowCloses | endDoesNothing => constructor <;> simp
  | peeks | edgeLost | lowAwaited | highAwaited | bitEnds => constructor <;> simp
  | gets ch => constructor <;> simp [readAndAcknowledge_eq]
  | bitSampled => constructor <;> simp [State.sampleBit]
  | edgeCounts d tm u hr =>
    obtain rfl | rfl | rfl := hr <;> constructor <;> simp [State.takeBit]
  | edgeDecodes d tm u hr =>
    obtain ⟨_, _, _, _, _, he⟩ := validateFrame_frame (u.takeBit d).frame (u.takeBit d)
    rw [validateBuffer, he]
    obtain rfl | rfl | rfl := hr <;> constructor <;> simp [State.takeBit]
  | readEnds c d u _ hg =>
    obtain ⟨_, _, _, _, _, _, rfl⟩ := hg
    constructor <;> simp [finishRead]
  | attemptFails c d u _ _ hg =>
    obtain ⟨_, _, _, _, _, _, rfl⟩ := hg
    constructor <;> simp [nextAttempt]
  | resets => constructor <;> simp [State.afterReset]

/-- Settles O51: taking an instant leaves the strap, and no operation of the ports writes it. -/
theorem stepNeverChangesTheStrap : Obligations.StepNeverChangesTheStrap := by
  intro s t h
  obtain ⟨rest, rfl⟩ | ⟨i, rest, _, he⟩ := step_next_effect h
  · rfl
  · exact he.writesOnlyItsFields.strap

/-- Settles O53: taking an instant writes none of the fields, and an operation only its own. -/
theorem onlyTheListedOperationsWriteEachField : Obligations.OnlyTheListedOperationsWriteEachField := by
  intro s t h
  obtain ⟨rest, rfl⟩ | ⟨i, rest, hf, he⟩ := step_next_effect h
  · simp
  · have hw := he.writesOnlyItsFields
    exact ⟨fun hne => ⟨i, _, hf, hw.bitIndex hne⟩, fun hne => ⟨i, _, hf, hw.startTs hne⟩,
      fun hne => ⟨i, _, hf, hw.buf hne⟩, fun hne => ⟨i, _, hf, hw.armed hne⟩, fun hne => ⟨i, _, hf, hw.ack hne⟩,
      fun hne => ⟨i, _, hf, hw.phase hne⟩, fun hne => ⟨i, _, hf, hw.attempt hne⟩,
      fun hne => ⟨i, _, hf, hw.blkBit hne⟩, fun hne => ⟨i, _, hf, hw.req hne⟩, fun hne => ⟨i, _, hf, hw.got hne⟩⟩

/-! The buffer's bounds, and the state right after reset. -/

/-- Settles O25: the fault is the one `shiftIn` answers outside the buffer. -/
theorem shiftOutsideTheBufferFaults : Obligations.ShiftOutsideTheBufferFaults := by
  intro i d s h5
  have hs : shiftIn i d s = .error (.noSuchBufferByte i.toNat) := by
    obtain ⟨hlt, _⟩ | ⟨_, hs⟩ := shiftIn_cases i d s
    · exact absurd h5 (Nat.not_le.mpr hlt)
    · exact hs
  change execShift i d s = _
  simp only [execShift, hs]

/-- Settles O42: the state right after reset has the reset value in every field either invariant reads (R36). -/
theorem resetStateMeetsTheInvariants : Obligations.ResetStateMeetsTheInvariants := by
  refine ⟨{ State.reset.afterReset_inv with }, fun ch hflag => ?_⟩
  cases ch <;> cases hflag

end Sys2Proof.Machine

/-! PROOFS. Proofs/Memory.lean: how the wire bits of a frame fill the buffer (R51, R53 to R55), and that a decode and a
getter of the same channel lose no update in either order (R62, R64): the statements cited from 20_memory.md. -/

namespace Sys2Proof.Machine

/-! Operations performed one after another. -/

theorem execAll_cons_of_next {i : Instr} {is : List Instr} {s t : State} (h : exec i s = .next t) :
    execAll (i :: is) s = execAll is t := by
  simp only [execAll, h]

theorem execAll_pair_of_next {i j : Instr} {s t u : State} (hi : exec i s = .next t) (hj : exec j t = .next u) :
    execAll [i, j] s = .next u := by
  rw [execAll_cons_of_next hi, execAll_cons_of_next hj]
  rfl

theorem execAll_append_of_next {is js : List Instr} {s t : State} (h : execAll is s = .next t) :
    execAll (is ++ js) s = execAll js t := by
  induction is generalizing s with
  | nil =>
    cases h
    rfl
  | cons i is ih =>
    cases hx : exec i s with
    | next u =>
      rw [execAll_cons_of_next hx] at h
      rw [List.cons_append, execAll_cons_of_next hx, ih h]
    | fault | refused => simp [execAll, hx] at h

/-! A getter and a decode of the same channel. -/

section ReadAndAcknowledge

variable (ch : Channel) (s : State)

@[simp] theorem readAndAcknowledge_armed : (readAndAcknowledge ch s).armed = s.armed := by simp [readAndAcknowledge_eq]
@[simp] theorem readAndAcknowledge_bitIndex : (readAndAcknowledge ch s).bitIndex = s.bitIndex := by
  simp [readAndAcknowledge_eq]
@[simp] theorem readAndAcknowledge_startTs : (readAndAcknowledge ch s).startTs = s.startTs := by
  simp [readAndAcknowledge_eq]
@[simp] theorem readAndAcknowledge_frame : (readAndAcknowledge ch s).frame = s.frame := by simp [readAndAcknowledge_eq]
@[simp] theorem readAndAcknowledge_rsp : (readAndAcknowledge ch s).rsp = some (s.x ch) := by
  simp [readAndAcknowledge_eq]
@[simp] theorem readAndAcknowledge_x (ch' : Channel) : (readAndAcknowledge ch s).x ch' = s.x ch' := by
  simp [readAndAcknowledge_eq]
@[simp] theorem readAndAcknowledge_upd_same : (readAndAcknowledge ch s).upd ch = false := by
  simp [readAndAcknowledge_eq]

end ReadAndAcknowledge

/-- A getter that finds the block ready completes at once (R160, R161). -/
theorem exec_getter_of_idle (ch : Channel) {s : State} (hp : s.phase = .idle) :
    exec (getter ch) s = .next (readAndAcknowledge ch s) := by
  cases ch <;> exact if_pos hp

@[simp] theorem State.takeBit_phase (s : State) (d : Level) : (s.takeBit d).phase = s.phase := rfl
@[simp] theorem State.takeBit_rsp (s : State) (d : Level) : (s.takeBit d).rsp = s.rsp := rfl

/-- The getter and the bit an edge takes touch different parts of the state, so their order does not matter (R62). -/
theorem takeBit_readAndAcknowledge (ch : Channel) (s : State) (d : Level) :
    (readAndAcknowledge ch s).takeBit d = readAndAcknowledge ch (s.takeBit d) := by
  cases ch <;> rfl

@[simp] theorem validateBuffer_frame (s : State) : (validateBuffer s).1.frame = s.frame := by
  obtain ⟨_, _, _, _, _, he⟩ := validateFrame_frame s.frame s
  rw [validateBuffer, he]
  rfl

@[simp] theorem validateBuffer_phase (s : State) : (validateBuffer s).1.phase = s.phase := by
  obtain ⟨_, _, _, _, _, he⟩ := validateFrame_frame s.frame s
  rw [validateBuffer, he]

@[simp] theorem validateBuffer_rsp (s : State) : (validateBuffer s).1.rsp = s.rsp := by
  obtain ⟨_, _, _, _, _, he⟩ := validateFrame_frame s.frame s
  rw [validateBuffer, he]

/-- `VALIDATE` on a buffer that holds a VALID frame of the channel writes the channel's pair (R64, R106). -/
theorem validateBuffer_decoded {s : State} {ch : Channel} (h : updates s.frame ch) :
    (validateBuffer s).1.x ch = convertBytes s.frame.magHi s.frame.magLo ∧ (validateBuffer s).1.upd ch = true :=
  (validateFrame_validated s.frame s ch).1 h

/-- An `EDGE` in time at position 39 takes the last bit and validates the buffer (R122). -/
theorem exec_edge_of_lastBit {d : Level} {tm : Millis} {s : State} (ha : s.armed = true)
    (h39 : s.bitIndex.toNat = 39) (htm : (tm - s.startTs).toNat ≤ 25) :
    exec (.edge d tm) s = .next (validateBuffer (s.takeBit d)).1 := by
  have hrestart : edgeRestart tm s = s := by
    obtain ⟨h40, _⟩ | ⟨_, hlate, _⟩ | ⟨_, _, h⟩ := edgeRestart_cases tm s
    · omega
    · omega
    · exact h
  have hcount : ∀ b, edgeCount { s with buf := b } =
      (validateBuffer { s with buf := b, bitIndex := s.bitIndex + 1 }).1 := by
    intro b
    obtain ⟨_, h⟩ | ⟨hn, _⟩ := edgeCount_cases { s with buf := b }
    · exact h
    · exact absurd (by bv_omega) hn
  change execEdge d tm s = _
  obtain ⟨_, hshift⟩ | ⟨h5, _⟩ := shiftIn_cases (byteIndex s.bitIndex) d s
  · rw [execEdge, if_pos ha]
    simp only [hrestart, hshift]
    exact congrArg Host.Outcome.next (hcount _)
  · rw [five_le_byteIndex_iff] at h5
    omega

/-- Settles O13: the edge takes the last bit of the same frame before and after the getter, so `VALIDATE` writes the same
value in both orders, and the flag is left by whichever of the two came last. -/
theorem getterAndEdgeInEitherOrder : Obligations.GetterAndEdgeInEitherOrder := by
  intro ch d tm s e ha hp _ h39 htm he hup
  rw [exec_edge_of_lastBit ha h39 htm] at he
  cases he
  rw [validateBuffer_frame] at hup ⊢
  constructor
  · obtain ⟨hx, _⟩ := validateBuffer_decoded hup
    refine ⟨readAndAcknowledge ch (validateBuffer (s.takeBit d)).1, ?_, ?_, ?_, ?_⟩
    · exact execAll_pair_of_next (exec_edge_of_lastBit ha h39 htm) (exec_getter_of_idle ch (by simpa using hp))
    · simp [hx]
    · simp [hx]
    · simp
  · have hedge : exec (.edge d tm) (readAndAcknowledge ch s) =
        .next (validateBuffer (readAndAcknowledge ch (s.takeBit d))).1 := by
      rw [← takeBit_readAndAcknowledge]
      exact exec_edge_of_lastBit (by simpa using ha) (by simpa using h39) (by simpa using htm)
    have hup' : updates (readAndAcknowledge ch (s.takeBit d)).frame ch := by simpa using hup
    obtain ⟨hx, hu⟩ := validateBuffer_decoded hup'
    refine ⟨_, execAll_pair_of_next (exec_getter_of_idle ch hp) hedge, ?_, ?_, hu⟩
    · rw [validateBuffer_rsp, ← takeBit_readAndAcknowledge, State.takeBit_rsp, readAndAcknowledge_rsp]
    · rw [hx, readAndAcknowledge_frame]

/-! Bits shifted into the buffer. -/

theorem exec_shift_of_lt {i : BitVec 3} (d : Level) (s : State) (hi : i.toNat < 5) :
    exec (.shift i d) s = .next { s with buf := s.buf.put i.toNat (shiftByte (s.buf.get i.toNat) d) } := by
  change execShift i d s = _
  obtain ⟨_, h⟩ | ⟨h5, _⟩ := shiftIn_cases i d s
  · simp only [execShift, h]
  · omega

/-- Any number of bits shifted into one byte of a canonical buffer: they enter that byte in order, and nothing else is
written (R100). -/
theorem execAll_shifts {i : BitVec 3} (hi : i.toNat < 5) (ds : List Level) {s : State} (hs : s.buf.wf = true) :
    ∃ b, execAll (ds.map (.shift i)) s = .next { s with buf := b } ∧ b.wf = true ∧
      ∀ a, b.get a = if a = i.toNat then ds.foldl shiftByte (s.buf.get i.toNat) else s.buf.get a := by
  induction ds generalizing s with
  | nil => exact ⟨s.buf, rfl, hs, fun a => by split_ifs with h <;> simp [h]⟩
  | cons d ds ih =>
    obtain ⟨b, hx, hb, hget⟩ :=
      ih (s := { s with buf := s.buf.put i.toNat (shiftByte (s.buf.get i.toNat) d) }) (Memory.put_wf _ hs hi)
    refine ⟨b, ?_, hb, fun a => ?_⟩
    · rw [List.map_cons, execAll_cons_of_next (exec_shift_of_lt d s hi), hx]
    · rw [hget]
      simp only [Memory.get_put _ _ _ hs, if_true, List.foldl_cons]
      split_ifs <;> rfl

/-- The bits of a byte in the order in which they arrive, the most significant first (R53). -/
def bitsMsbFirst (v : Byte) : List Level :=
  (List.range 8).map fun k => v.extractLsb' (7 - k) 1

/-- After `n` of a byte's bits the old contents have moved up by `n` and the new bits stand below them (R53, R55). -/
theorem foldl_shiftByte_range (b v : Byte) {n : Nat} (hn : n ≤ 8) :
    ((List.range n).map fun k => v.extractLsb' (7 - k) 1).foldl shiftByte b = (b <<< n) ||| (v >>> (8 - n)) := by
  induction n with
  | zero => simp [BitVec.ushiftRight_eq_zero]
  | succ n ih =>
    rw [List.range_succ, List.map_append, List.foldl_append, ih (by omega)]
    simp only [List.map_cons, List.map_nil, List.foldl_cons, List.foldl_nil, shiftByte_eq]
    ext j hj
    cases j with
    | zero => simp
    | succ j =>
      have hpos : 8 - n + j = 7 - n + (j + 1) := by omega
      simp [hpos]

/-- The flush property: eight bits leave nothing of the old contents (R55). -/
theorem foldl_shiftByte_bitsMsbFirst (b v : Byte) : (bitsMsbFirst v).foldl shiftByte b = v := by
  rw [bitsMsbFirst, foldl_shiftByte_range b v (Nat.le_refl 8)]
  simp [BitVec.shiftLeft_eq_zero]

/-- A whole byte shifted in replaces one byte of a canonical buffer, and nothing else is written (R55). -/
theorem execAll_shifts_bitsMsbFirst {i : BitVec 3} (hi : i.toNat < 5) (v : Byte) {s : State} (hs : s.buf.wf = true) :
    ∃ b, execAll ((bitsMsbFirst v).map (.shift i)) s = .next { s with buf := b } ∧ b.wf = true ∧
      ∀ a, b.get a = if a = i.toNat then v else s.buf.get a := by
  obtain ⟨b, hx, hb, hget⟩ := execAll_shifts hi (bitsMsbFirst v) hs
  rw [foldl_shiftByte_bitsMsbFirst] at hget
  exact ⟨b, hx, hb, hget⟩

/-- Settles O26: the eight shifts are those of the byte's bits, most significant first. -/
theorem eightShiftsReplaceTheByte : Obligations.EightShiftsReplaceTheByte := by
  intro i v s hi hs
  obtain ⟨b, hx, _, hget⟩ := execAll_shifts_bitsMsbFirst (Nat.lt_succ_of_le hi) v hs
  refine ⟨{ s with buf := b }, ?_, (hget _).trans (if_pos rfl), fun a ha => (hget a).trans (if_neg ha)⟩
  rw [← hx, bitsMsbFirst, List.map_map]
  rfl

/-! The forty bits of a frame, byte by byte. -/

/-- Byte `n` of a 40-bit value, byte 0 on top (R71). -/
def frameByte (w : BitVec 40) (n : Nat) : Byte :=
  w.extractLsb' (32 - 8 * n) 8

theorem ofWord_eq_frameByte (w : BitVec 40) :
    Frame.ofWord w = ⟨frameByte w 0, frameByte w 1, frameByte w 2, frameByte w 3, frameByte w 4⟩ := rfl

/-- The wire bits from `8 * n` on are those of byte `n`, most significant first (R51, R53, R72). -/
theorem frameByte_extract (w : BitVec 40) {n j : Nat} (hn : n < 5) (hj : j < 8) :
    (frameByte w n).extractLsb' (7 - j) 1 = Frame.wireBit w (8 * n + j) := by
  have hbit : 32 - 8 * n + (7 - j) = 39 - (8 * n + j) := by omega
  have hlow : 7 - j < 8 := by omega
  ext k hk
  obtain rfl : k = 0 := by omega
  simp [frameByte, Frame.wireBit, hbit, hlow]

/-- The `SHIFT` of the `k`-th wire bit, into the byte of its position (R51, R100). -/
def wireShift (w : BitVec 40) (k : Nat) : Instr :=
  .shift (BitVec.ofNat 3 (k / 8)) (Frame.wireBit w k)

theorem wireShifts_of_byte (w : BitVec 40) {n : Nat} (hn : n < 5) :
    (List.range 8).map (fun j => wireShift w (8 * n + j)) =
      (bitsMsbFirst (frameByte w n)).map (.shift (BitVec.ofNat 3 n)) := by
  rw [bitsMsbFirst, List.map_map]
  refine List.map_congr_left fun j hj => ?_
  have hj : j < 8 := List.mem_range.mp hj
  have hdiv : (8 * n + j) / 8 = n := by omega
  simp only [wireShift, Function.comp, hdiv, frameByte_extract w hn hj]

/-- After the wire bits of `n` whole bytes, those bytes of the buffer are the frame's and the others as before. -/
theorem execAll_wireShifts (w : BitVec 40) {n : Nat} (hn : n ≤ 5) {s : State} (hs : s.buf.wf = true) :
    ∃ b, execAll ((List.range (8 * n)).map (wireShift w)) s = .next { s with buf := b } ∧ b.wf = true ∧
      ∀ a, b.get a = if a < n then frameByte w a else s.buf.get a := by
  induction n with
  | zero => exact ⟨s.buf, rfl, hs, fun a => by simp⟩
  | succ n ih =>
    obtain ⟨b, hx, hb, hget⟩ := ih (by omega)
    have hindex : (BitVec.ofNat 3 n).toNat = n := Nat.mod_eq_of_lt (by omega)
    obtain ⟨b', hx', hb', hget'⟩ := execAll_shifts_bitsMsbFirst (i := BitVec.ofNat 3 n) (by omega) (frameByte w n)
      (s := { s with buf := b }) hb
    refine ⟨b', ?_, hb', fun a => ?_⟩
    · rw [Nat.mul_succ, List.range_add, List.map_append, execAll_append_of_next hx, List.map_map, ← hx',
        ← wireShifts_of_byte w hn]
      rfl
    · rw [hget', hindex]
      obtain hlt | rfl | hgt := Nat.lt_trichotomy a n
      · simp [hget, hlt, Nat.ne_of_lt hlt, Nat.lt_succ_of_lt hlt]
      · simp
      · simp [hget, Nat.ne_of_gt hgt, Nat.not_lt.mpr (Nat.le_of_lt hgt), Nat.not_lt.mpr hgt]

/-- Settles O27: the forty wire bits are those of five whole bytes, so the buffer's bytes are the frame's, and each wire
bit is a bit of its byte. -/
theorem fortyShiftsFillTheFrame : Obligations.FortyShiftsFillTheFrame := by
  intro w s hs
  obtain ⟨b, hx, _, hget⟩ := execAll_wireShifts w (Nat.le_refl 5) hs
  refine ⟨{ s with buf := b }, hx, fun k hk => ?_, ?_, fun ch => ?_⟩
  · have hbyte : k / 8 < 5 := by omega
    rw [State.byteAt, hget, if_pos hbyte, frameByte_extract w hbyte (Nat.mod_lt k (by decide)), Nat.div_add_mod]
  · simp [State.frame, Memory.frame, hget, ofWord_eq_frameByte]
  · cases ch <;> exact ⟨rfl, rfl⟩

end Sys2Proof.Machine

/-! PROOFS. Proofs/Encoding.lean: the encodings and the operations they stand for (R71, R76, R79, R80, R82), the frame
classes (R81, R106), and the response of every step (R78): the statements cited from 30_encoding.md. -/

namespace Sys2Proof.Machine

/-! The fields of an encoding: putting a word together and taking it apart are inverse (R71, R76, R79). -/

@[simp] theorem commandWord_op (op : BitVec 4) (arg : BitVec 2) : (commandWord op arg).extractLsb' 4 4 = op := by
  rw [commandWord, BitVec.extractLsb'_append_eq_of_le (by decide), BitVec.extractLsb'_append_eq_left]

@[simp] theorem commandWord_pad (op : BitVec 4) (arg : BitVec 2) : (commandWord op arg).extractLsb' 2 2 = 0 := by
  rw [commandWord, BitVec.extractLsb'_append_eq_of_le (by decide), BitVec.extractLsb'_append_eq_right]

@[simp] theorem commandWord_arg (op : BitVec 4) (arg : BitVec 2) : (commandWord op arg).extractLsb' 0 2 = arg :=
  BitVec.extractLsb'_append_eq_right

/-- A word with zero padding is the command word of its two fields (R76). -/
theorem commandWord_of_fields {cw : CommandWord} {op : BitVec 4} {arg : BitVec 2} (hop : cw.extractLsb' 4 4 = op)
    (hpad : cw.extractLsb' 2 2 = 0) (harg : cw.extractLsb' 0 2 = arg) : commandWord op arg = cw := by
  rw [commandWord, ← hop, ← hpad, ← harg, BitVec.extractLsb'_append_extractLsb'_eq_extractLsb' (start₂ := 4) rfl,
    BitVec.extractLsb'_append_extractLsb'_eq_extractLsb' (start₂ := 2) rfl]
  exact BitVec.extractLsb'_eq_self

theorem decodeEdge_append (d : Level) (t : Millis) : decodeEdge (d ++ t) = .edge d t := by
  rw [decodeEdge, BitVec.extractLsb'_append_eq_left, BitVec.extractLsb'_append_eq_right]

theorem decodePoll_append (c d : Level) :
    decodePoll .waitLow (c ++ d) = .ok (.pollWaitLow c d) ∧ decodePoll .waitHigh (c ++ d) = .ok (.pollWaitHigh c d) := by
  simp only [decodePoll, BitVec.extractLsb'_append_eq_left, BitVec.extractLsb'_append_eq_right, and_self]

theorem edgeTuple_fields (e : BitVec 33) : e.extractLsb' 32 1 ++ e.extractLsb' 0 32 = e :=
  (BitVec.extractLsb'_append_extractLsb'_eq_extractLsb' rfl).trans BitVec.extractLsb'_eq_self

theorem levelTuple_fields (l : BitVec 2) : l.extractLsb' 1 1 ++ l.extractLsb' 0 1 = l :=
  (BitVec.extractLsb'_append_extractLsb'_eq_extractLsb' rfl).trans BitVec.extractLsb'_eq_self

/-- Above a last byte stand the bits of what it was appended to. -/
theorem extractLsb'_append_byte {n : Nat} (x : BitVec n) (y : Byte) (k len : Nat) :
    (x ++ y).extractLsb' (k + 8) len = x.extractLsb' k len := by
  rw [BitVec.extractLsb'_append_eq_of_le (Nat.le_add_left ..), Nat.add_sub_cancel]

@[simp] theorem ofWord_toWord (f : Frame) : Frame.ofWord f.toWord = f := by
  have hlast {n : Nat} (x : BitVec n) (y : Byte) : (x ++ y).extractLsb' 0 8 = y := BitVec.extractLsb'_append_eq_right
  simp [Frame.ofWord, Frame.toWord, extractLsb'_append_byte _ _ 24, extractLsb'_append_byte _ _ 16,
    extractLsb'_append_byte _ _ 8, extractLsb'_append_byte _ _ 0, hlast]

@[simp] theorem toWord_ofWord (w : BitVec 40) : (Frame.ofWord w).toWord = w := by
  simp only [Frame.toWord, Frame.ofWord]
  rw [BitVec.extractLsb'_append_extractLsb'_eq_extractLsb' (start₂ := 32) rfl,
    BitVec.extractLsb'_append_extractLsb'_eq_extractLsb' (start₂ := 24) rfl,
    BitVec.extractLsb'_append_extractLsb'_eq_extractLsb' (start₂ := 16) rfl,
    BitVec.extractLsb'_append_extractLsb'_eq_extractLsb' (start₂ := 8) rfl]
  exact BitVec.extractLsb'_eq_self

/-! Command words: ten are defined, and every other is rejected by its word (R76, R82). -/

/-- The defined command words, each with its operation (R76). -/
def commandTable : List (CommandWord × Instr) :=
  [(0x10, .read 0), (0x11, .read 1), (0x12, .read 2), (0x13, .read 3), (0x20, .start), (0x30, .endConv), (0x40, .getO),
    (0x41, .getE), (0x50, .peekO), (0x51, .peekE)]

theorem decodeCommand_of_mem : ∀ p ∈ commandTable, decodeCommand p.1 = .ok p.2 := by decide

/-- The operation of a defined word is well formed, every phase selects it, and it encodes to its word. -/
theorem encode_of_mem (ph : Phase) :
    ∀ p ∈ commandTable, p.2.wellFormed = true ∧ p.2.selectedIn ph = true ∧ encode p.2 = .event (.cmd p.1) := by
  cases ph <;> decide

/-- What a command word decodes to is what the table says: the padding and the fields the decoder tests make up the
whole word. -/
theorem decodeCommand_ok_iff {cw : CommandWord} {i : Instr} :
    decodeCommand cw = .ok i ↔ (cw, i) ∈ commandTable := by
  refine ⟨fun h => ?_, decodeCommand_of_mem (cw, i)⟩
  have hread : ∀ m, (commandWord 0x1 m, Instr.read m) ∈ commandTable := by decide
  simp only [decodeCommand] at h
  split_ifs at h with hpad hop hf hf hf hf hf hf <;> cases h
  · have hword := hread (cw.extractLsb' 0 2)
    rwa [commandWord_of_fields hop (not_not.mp hpad) rfl] at hword
  all_goals
    rw [← commandWord_of_fields hf.1 (not_not.mp hpad) hf.2]
    decide

/-- Whatever the table does not hold is rejected as reserved, by its word (R82). -/
theorem decodeCommand_reserved {cw : CommandWord} (h : ∀ i, decodeCommand cw ≠ .ok i) :
    decodeCommand cw = .error (.reservedCommand cw) := by
  cases hd : decodeCommand cw with
  | ok i => exact absurd hd (h i)
  | error e =>
    simp only [decodeCommand] at hd
    split_ifs at hd <;> cases hd <;> rfl

/-- Settles O3: the ten words are the first column of the table. -/
theorem tenCommandWordsAreDefined : Obligations.TenCommandWordsAreDefined := by
  intro ph cw
  have hdefined : (∃ i, decodeCommand cw = .ok i) ↔ cw ∈ commandTable.map Prod.fst := by
    simp [decodeCommand_ok_iff]
  exact ⟨hdefined, fun hcw => decodeCommand_reserved fun i hi => hcw (hdefined.mp ⟨i, hi⟩)⟩

/-- A reserved word presented first to a ready block is what the step finds (R82). -/
theorem fetch_of_reserved {s : State} {cw : CommandWord} {rest : List Instant}
    (hn : PresentsNext s ⟨false, some (.cmd cw)⟩ rest) (hd : decodeCommand cw = .error (.reservedCommand cw)) :
    fetch s = .reserved cw := by
  have hd' : decode s.phase (.event (.cmd cw)) = .error (.reservedCommand cw) := hd
  simp only [fetch, nextInstant_of_presentsNext hn, Instant.code_eq_event_iff.mpr rfl, hd']

/-- Settles O46: the word is presented next, and decodes to no operation by O3. -/
theorem reservedCommandIsRefused : Obligations.ReservedCommandIsRefused := by
  intro s cw rest hp hi hcw
  have hf : fetch s = .reserved cw :=
    fetch_of_reserved (.inl ⟨hp, hi⟩) ((tenCommandWordsAreDefined s.phase cw).2 hcw)
  simp only [step, hf]

/-! The frame classes: one operation per channel, `VALIDATE` on a frame of that channel (R80, R81, R106). -/

/-- The address byte of a channel (R7, R104). -/
def channelAddress : Channel → Byte
  | .obj => config.objectAddress
  | .env => config.environmentAddress

/-- The frame a class stands for: its channel's address, the end marker, and three bytes given (R80). -/
def classFrame (ch : Channel) (b c v : Byte) : Frame :=
  ⟨channelAddress ch, b, c, v, config.endMarker⟩

/-- The frame class of a channel (R80). -/
def frameClass : Channel → Byte → Byte → Byte → Instr
  | .obj => .objFrame
  | .env => .envFrame

theorem classifyAddr_eq_some_iff {a : Byte} {ch : Channel} : classifyAddr a = some ch ↔ a = channelAddress ch := by
  have hne := addresses_differ
  unfold classifyAddr
  cases ch <;> split_ifs <;> simp_all [channelAddress]

section FrameClass

variable (ch : Channel) (b c v : Byte)

theorem encode_frameClass : encode (frameClass ch b c v) = .frame (classFrame ch b c v).toWord := by
  cases ch <;> rfl

theorem wellFormed_frameClass : (frameClass ch b c v).wellFormed = (classFrame ch b c v).checksumOk := by
  cases ch <;> rfl

theorem selectedIn_frameClass (ph : Phase) : (frameClass ch b c v).selectedIn ph = true := by
  cases ch <;> rfl

/-- A class acts as `VALIDATE` on its frame (R106). -/
theorem exec_frameClass_eq (s : State) :
    exec (frameClass ch b c v) s = exec (.validate (channelAddress ch) b c v config.endMarker) s := by
  cases ch <;> rfl

@[simp] theorem classifyAddr_classFrame : classifyAddr (classFrame ch b c v).addr = some ch :=
  classifyAddr_eq_some_iff.mpr rfl

theorem classFrame_valid : (classFrame ch b c v).valid = (classFrame ch b c v).checksumOk := by
  have hterm : (classFrame ch b c v).termOk = true := (Frame.termOk_iff _).mpr rfl
  rw [Frame.valid, hterm, Bool.and_true]

end FrameClass

/-- The frames of the classes are those of a channel with the right checksum (R80). -/
theorem inClass_iff {f : Frame} :
    f.inClass = true ↔ ∃ ch b c v, f = classFrame ch b c v ∧ (classFrame ch b c v).checksumOk = true := by
  constructor
  · intro h
    simp only [Frame.inClass, Frame.valid, Bool.and_eq_true] at h
    obtain ⟨⟨hc, ht⟩, ha⟩ := h
    obtain ⟨ch, ha⟩ := Option.isSome_iff_exists.mp ha
    have hf : f = classFrame ch f.magHi f.magLo f.csum := by
      rw [classFrame, ← classifyAddr_eq_some_iff.mp ha, config_endMarker, ← (Frame.termOk_iff f).mp ht]
    exact ⟨ch, f.magHi, f.magLo, f.csum, hf, hf ▸ hc⟩
  · rintro ⟨ch, b, c, v, rfl, hc⟩
    simp [Frame.inClass, classFrame_valid, hc]

theorem decodeFrame_of_class {w : BitVec 40} {ch : Channel} {b c v : Byte} (hf : Frame.ofWord w = classFrame ch b c v)
    (hc : (classFrame ch b c v).checksumOk = true) : decodeFrame w = frameClass ch b c v := by
  simp only [decodeFrame, hf, classFrame_valid, hc, classifyAddr_classFrame]
  cases ch <;> rfl

theorem decodeFrame_of_not_inClass {w : BitVec 40} {f : Frame} (hf : Frame.ofWord w = f) (h : f.inClass = false) :
    decodeFrame w = .validate f.addr f.magHi f.magLo f.csum f.term := by
  subst hf
  simp only [decodeFrame]
  split
  · next hv ha => simp [Frame.inClass, hv, ha] at h
  · next hv ha => simp [Frame.inClass, hv, ha] at h
  · rfl

/-- Settles O40: a frame of a class decodes to the class, which acts as `VALIDATE`, and any other to `VALIDATE`. -/
theorem decodedFrameActsAsValidate : Obligations.DecodedFrameActsAsValidate := by
  intro w s
  cases h : (Frame.ofWord w).inClass
  · rw [decodeFrame_of_not_inClass rfl h]
  · obtain ⟨ch, b, c, v, hf, hc⟩ := inClass_iff.mp h
    rw [decodeFrame_of_class hf hc, hf]
    exact exec_frameClass_eq ch b c v s

/-- With the right checksum a class writes its channel's temperature and hands back the channel's mask (R106). -/
theorem exec_frameClass {ch : Channel} {b c v : Byte} (hw : (frameClass ch b c v).wellFormed = true) (s : State) :
    exec (frameClass ch b c v) s = .next ((s.storeTemp ch (convertBytes b c)).yield (.mask ch.mask)) := by
  have hv : (classFrame ch b c v).valid = true := by rwa [classFrame_valid, ← wellFormed_frameClass]
  have hf : validateFrame (classFrame ch b c v) s = (s.storeTemp ch (convertBytes b c), ch.mask) := by
    obtain ⟨hc, _⟩ | ⟨_, ht, _⟩ | ⟨_, ha, _⟩ | ⟨ch', _, ha, h⟩ := validateFrame_cases (classFrame ch b c v) s
    · simp [Frame.valid, hc] at hv
    · simp [Frame.valid, ht] at hv
    · simp at ha
    · obtain rfl : ch = ch' := by simpa using ha
      exact h
  rw [exec_frameClass_eq]
  exact congrArg (fun r => Host.Outcome.next (r.1.yield (.mask r.2))) hf

/-- Settles O39: both clauses are `exec_frameClass`, and that state differs only in the channel's entry and the mask handed
back. -/
theorem frameClassesWriteTheirChannel : Obligations.FrameClassesWriteTheirChannel := by
  intro b c v s
  refine ⟨fun hw => ⟨_, exec_frameClass (ch := .obj) hw s, ?_⟩, fun hw => ⟨_, exec_frameClass (ch := .env) hw s, ?_⟩⟩
  all_goals
    exact ⟨rfl, rfl, ⟨rfl, rfl⟩, rfl, rfl, fun _ => rfl, ⟨rfl, rfl⟩, ⟨rfl, rfl⟩, ⟨rfl, rfl, ⟨rfl, rfl, rfl⟩⟩,
      ⟨rfl, rfl, rfl⟩, rfl, rfl⟩

/-! Decoding and encoding, over all operations. -/

/-- Settles O1: each encoding is taken apart into the fields it was put together from. -/
theorem decodeOfEncodeIsTheOperation : Obligations.DecodeOfEncodeIsTheOperation := by
  intro ph i hw hs he
  cases i with
  | read m => simp [decode, encode, decodeCommand]
  | start | endConv | getO | getE | peekO | peekE | reset => rfl
  | edge d t => exact congrArg Except.ok (decodeEdge_append d t)
  | pollWaitLow c d =>
    obtain rfl : ph = .waitLow := by simpa [Instr.selectedIn] using hs
    exact (decodePoll_append c d).1
  | pollWaitHigh c d =>
    obtain rfl : ph = .waitHigh := by simpa [Instr.selectedIn] using hs
    exact (decodePoll_append c d).2
  | validate a b c s e =>
    have hw' : (Frame.mk a b c s e).inClass = false := by simpa [Instr.wellFormed] using hw
    exact congrArg Except.ok (decodeFrame_of_not_inClass (ofWord_toWord _) hw')
  | objFrame b c v => exact congrArg Except.ok (decodeFrame_of_class (ch := .obj) (ofWord_toWord _) hw)
  | envFrame b c v => exact congrArg Except.ok (decodeFrame_of_class (ch := .env) (ofWord_toWord _) hw)
  | shift | checksum | terminator | classify | convert => exact absurd rfl he

/-- Settles O2: each code is put together again from the fields it was taken apart into. -/
theorem decodedOperationEncodesToItsBits : Obligations.DecodedOperationEncodesToItsBits := by
  intro ph c i h
  cases c with
  | rstPort =>
    cases h
    exact ⟨rfl, rfl, rfl⟩
  | internal => cases h
  | frame w =>
    obtain rfl : decodeFrame w = i := Except.ok.inj h
    cases hf : (Frame.ofWord w).inClass
    · rw [decodeFrame_of_not_inClass rfl hf]
      exact ⟨by simpa [Instr.wellFormed] using hf, rfl, congrArg Code.frame (toWord_ofWord w)⟩
    · obtain ⟨ch, b, c, v, hw, hc⟩ := inClass_iff.mp hf
      rw [decodeFrame_of_class hw hc, wellFormed_frameClass, encode_frameClass, ← hw, toWord_ofWord]
      exact ⟨hw ▸ hc, selectedIn_frameClass ch b c v ph, rfl⟩
  | event e =>
    cases e with
    | cmd cw => exact encode_of_mem ph _ (decodeCommand_ok_iff.mp h)
    | edge e =>
      cases h
      exact ⟨rfl, rfl, congrArg (Code.event ∘ Event.edge) (edgeTuple_fields e)⟩
    | poll l =>
      cases ph with
      | idle => cases h
      | waitLow | waitHigh =>
        cases h
        exact ⟨rfl, rfl, congrArg (Code.event ∘ Event.poll) (levelTuple_fields l)⟩

/-- Settles O4: each word is taken apart and evaluates to its operation. -/
theorem specWordsDecode : Obligations.SpecWordsDecode := by
  unfold Obligations.SpecWordsDecode
  decide

/-! The response of a step (R78). -/

/-- The response of an operation performed in `s` that leaves `t` (R78, R143). -/
def responseOf (s t : State) : Instr → Option Word32
  | .start => some (if s.edgeCapable then 1 else 0)
  | .endConv => some 0
  | .getO => some (s.x .obj)
  | .getE => some (s.x .env)
  | .peekO => some (peekFlag .obj s)
  | .peekE => some (peekFlag .env s)
  | .pollWaitHigh _ _ => if t.phase = .idle then some 0 else none
  | _ => none

/-- An accepted command has its response at once, and `READ` has none yet (R78, R140). -/
theorem command_rsp {i : Instr} {s t : State} (hq : s.rsp = none) (hp : s.phase = .idle) (h : exec i s = .next t)
    (hi : (∃ m, i = .read m) ∨ i = .start ∨ i = .endConv ∨ i = .getO ∨ i = .getE ∨ i = .peekO ∨ i = .peekE) :
    t.rsp = responseOf s t i := by
  obtain ⟨m, rfl, _, rfl⟩ | ⟨rfl, ⟨hc, rfl⟩ | ⟨hc, rfl⟩⟩ | ⟨rfl, ⟨_, rfl⟩ | ⟨_, rfl⟩⟩ | ⟨ch, rfl, rfl⟩ |
    ⟨ch, rfl, rfl⟩ := command_next hp h hi
  · exact hq
  · simp [responseOf, hc]
  · simp [responseOf, hc]
  · rfl
  · rfl
  · cases ch <;> rfl
  · cases ch <;> rfl

/-- `EDGE` leaves the response port as it was (R122). -/
theorem edge_rsp {d : Level} {tm : Millis} {s t : State} (h : exec (.edge d tm) s = .next t) : t.rsp = s.rsp := by
  obtain ⟨_, rfl⟩ | ⟨_, u, b, hr, _, _, hb, ht⟩ := edge_next h
  · rfl
  · have hu : u.rsp = s.rsp := by obtain rfl | rfl | rfl := hr <;> rfl
    have hbu : b.rsp = u.rsp := by rw [hb]
    obtain rfl | ⟨_, rfl⟩ := ht
    · exact hbu.trans hu
    · exact (validateBuffer_rsp b).trans (hbu.trans hu)

/-- `POLL` in phase `WAIT_LOW` leaves the response port as it was (R142). -/
theorem pollWaitLow_rsp {c d : Level} {s t : State} (h : exec (.pollWaitLow c d) s = .next t) : t.rsp = s.rsp := by
  obtain ⟨_, rfl⟩ | ⟨_, rfl | ⟨_, rfl⟩⟩ := pollWaitLow_next h <;> rfl

/-- `POLL` in phase `WAIT_HIGH` has the response of the `READ` it ends, which leaves phase `IDLE` (R143, R151). -/
theorem pollWaitHigh_rsp {c d : Level} {s t : State} (hq : s.rsp = none) (hp : s.phase = .waitHigh)
    (h : exec (.pollWaitHigh c d) s = .next t) : t.rsp = responseOf s t (.pollWaitHigh c d) := by
  obtain ⟨hn, _⟩ | ⟨_, rfl | ⟨_, rfl⟩ | ⟨_, rfl⟩⟩ := pollWaitHigh_next h
  · exact absurd hp hn
  · simp [responseOf, hp, hq]
  · simp [responseOf, hq]
  · obtain ⟨_, _, _, _, _, u, rfl, _, he | ⟨_, he⟩⟩ := endAttempt_next s.tick <;> rw [he]
    · simp [responseOf, finishRead]
    · simp [responseOf, nextAttempt, hq]

/-- Settles O56: a step begins with a quiet response port, so what stands there is what its operation put there. -/
theorem responseOfEveryStep : Obligations.ResponseOfEveryStep := by
  intro s t h
  obtain ⟨hhold, ht⟩ | ⟨i, u, hrun, hx⟩ := step_next_cases h
  · refine ⟨fun i u hf => by simp [hhold] at hf, fun u _ => ?_⟩
    obtain rfl | ⟨rest, rfl⟩ := ht <;> rfl
  · refine ⟨fun i' u' hf => ?_, fun u' hf => by simp [hrun] at hf⟩
    obtain ⟨rfl, rfl⟩ : i = i' ∧ u = u' := by simpa [hrun] using hf
    obtain ⟨⟨rest, rfl⟩, hport⟩ := fetch_run_cases hrun
    have hrsp : t.rsp = responseOf (s.accept rest) t i := by
      obtain ⟨hp, hi⟩ | ⟨d, tm, rfl⟩ | ⟨hp, c, d, rfl⟩ | ⟨hp, c, d, rfl⟩ | rfl := hport
      · exact command_rsp rfl hp hx hi
      · exact edge_rsp hx
      · exact pollWaitLow_rsp hx
      · exact pollWaitHigh_rsp rfl hp hx
      · cases hx
        rfl
    exact hrsp

end Sys2Proof.Machine

/-! PROOFS. Proofs/Validator.lean: what the internal operations do and leave unchanged, each performed by itself (R100 to
R106): the statements cited from 40_validator_decoder.md about the buffer and the frame. -/

namespace Sys2Proof.Machine

/-- What a state hands back and the conditions it has met are no part of the block (R177). -/
theorem sameBlock_yield (s : State) (r : Returned) : SameBlock s (s.yield r) :=
  ⟨fun _ => rfl, ⟨rfl, rfl⟩, fun _ => ⟨by simp, by simp⟩, ⟨rfl, rfl⟩, ⟨rfl, rfl, ⟨rfl, rfl, rfl⟩⟩, ⟨rfl, rfl, rfl⟩⟩

theorem sameBlock_raise_yield (s : State) (c : Condition) (r : Returned) : SameBlock s ((s.raise c).yield r) :=
  ⟨fun _ => rfl, ⟨rfl, rfl⟩, fun _ => ⟨by simp, by simp⟩, ⟨rfl, rfl⟩, ⟨rfl, rfl, ⟨rfl, rfl, rfl⟩⟩, ⟨rfl, rfl, rfl⟩⟩

/-- What a test of the validator leaves: a passed test raises nothing, a failed one its condition, and both write nothing
(R101, R102, R104). -/
theorem tested_frame (ok : Bool) (c : Condition) (r : Returned) (s : State) :
    ((if ok then s else s.raise c).yield r).raised = s.raised ++ (if ok then [] else [c]) ∧
      SameBlock s ((if ok then s else s.raise c).yield r) ∧ ((if ok then s else s.raise c).yield r).rsp = s.rsp ∧
      ((if ok then s else s.raise c).yield r).liveTick = s.liveTick := by
  cases ok
  · exact ⟨rfl, sameBlock_raise_yield s c r, rfl, rfl⟩
  · exact ⟨(List.append_nil _).symm, sameBlock_yield s r, rfl, rfl⟩

/-- Settles O28: the sum is `Frame.checksumOk_iff` at the buffer's frame, and the rest is `tested_frame`. -/
theorem checksumComparesTheSum : Obligations.ChecksumComparesTheSum := by
  intro s
  exact ⟨_, s.frame.checksumOk, rfl, rfl, Frame.checksumOk_iff s.frame, tested_frame ..⟩

/-- Settles O29: the terminator is `Frame.termOk_iff` at the buffer's frame, and the rest is `tested_frame`. -/
theorem termComparesTheTerminator : Obligations.TermComparesTheTerminator := by
  intro s
  exact ⟨_, s.frame.termOk, rfl, rfl, Frame.termOk_iff s.frame, tested_frame ..⟩

/-- Settles O30: each class is its channel's address, `classifyAddr_eq_some_iff`, and the rest is `tested_frame`. -/
theorem classifyReadsTheAddress : Obligations.ClassifyReadsTheAddress := by
  intro s
  obtain ⟨hraised, hsame⟩ := tested_frame (classifyAddr s.frame.addr).isSome .unknownAddress
    (.channelClass (classifyAddr s.frame.addr)) s
  refine ⟨_, _, rfl, rfl, classifyAddr_eq_some_iff (ch := .obj), classifyAddr_eq_some_iff (ch := .env), ?_, hsame⟩
  rw [hraised]
  cases classifyAddr s.frame.addr <;> rfl

/-- Settles O38: a frame is VALID when both tests pass, and each test says one of the two facts (R103). -/
theorem frameIsValidIffSumAndTerminator : Obligations.FrameIsValidIffSumAndTerminator := by
  intro a b c d e
  rw [Frame.valid, Bool.and_eq_true, Frame.checksumOk_iff, Frame.termOk_iff]

/-- Settles O31: the operation hands back `CONVERT`'s value, whose numerator is that of R105. -/
theorem convertRoundsTheExactValue : Obligations.ConvertRoundsTheExactValue := by
  intro b1 b2 s
  refine ⟨s.yield (.temperature (convertBytes b1 b2)), rfl, ?_, sameBlock_yield .., rfl, rfl, rfl⟩
  rw [State.yield_returned, convertBytes_eq, celsiusNumerator_eq, raw12]

/-- In numbers, the shifted byte is twice the old one plus the new bit, modulo 256 (R100). -/
theorem shiftByte_toNat (v : Byte) (d : Level) : (shiftByte v d).toNat = (2 * v.toNat + d.toNat) % 256 := by
  have hdisjoint : (v <<< 1) &&& d.setWidth 8 = 0#8 := by
    ext j hj
    cases j <;> simp
  rw [shiftByte_eq, ← BitVec.add_eq_or_of_and_eq_zero _ _ hdisjoint]
  bv_omega

/-- Settles O24: `exec_shift_of_lt` names the state after the shift, in which one byte of the buffer has been put. -/
theorem shiftMovesOneByteLeft : Obligations.ShiftMovesOneByteLeft := by
  intro i d s hi hs
  refine ⟨_, exec_shift_of_lt d s (Nat.lt_succ_of_le hi), ?_, fun a ha => Memory.get_put_other _ _ ha, ⟨rfl, rfl⟩,
    fun ch => ⟨by cases ch <;> rfl, by cases ch <;> rfl⟩, ⟨rfl, rfl⟩, ⟨rfl, rfl, ⟨rfl, rfl, rfl⟩⟩, ⟨rfl, rfl, rfl⟩,
    ⟨rfl, rfl, rfl, rfl⟩⟩
  rw [State.byteAt, Memory.get_put_same _ _ hs, shiftByte_toNat]
  rfl

/-- Settles O37: the register file, the mask and the conditions are those of `validateFrame`, and what it never writes is
`validateFrame_frame`. -/
theorem validateWritesAtMostOneChannel : Obligations.ValidateWritesAtMostOneChannel := by
  intro a b c v e s
  obtain ⟨xo, xe, uo, ue, r, hframe⟩ := validateFrame_frame ⟨a, b, c, v, e⟩ s
  refine ⟨(validateFrame ⟨a, b, c, v, e⟩ s).1.yield (.mask (validateFrame ⟨a, b, c, v, e⟩ s).2), rfl, fun ch => ?_, ?_,
    validateFrame_raised _ s, ?_⟩
  · obtain ⟨hwritten, hkept⟩ := validateFrame_validated ⟨a, b, c, v, e⟩ s ch
    refine ⟨fun hu => by simpa using hwritten hu, fun hu => ?_⟩
    obtain ⟨hx, hupd⟩ := hkept hu
    exact ⟨by simpa using hx, by simpa using hupd⟩
  · rw [State.yield_returned, validateFrame_mask]
  · rw [hframe]
    exact ⟨fun _ => rfl, ⟨rfl, rfl⟩, ⟨rfl, rfl⟩, ⟨rfl, rfl, ⟨rfl, rfl, rfl⟩⟩, ⟨rfl, rfl, rfl⟩, rfl, rfl⟩

end Sys2Proof.Machine

/-! PROOFS. Proofs/Rounding.lean: what the rounding of `RNE32` does (R12, R109). Values are counted in units of 2^-149, the
unit of `f32Scaled`, so that all of it is integer arithmetic: the exact value `num / den` is `num * 2 ^ 149 / den` units. -/

namespace Sys2Proof

/-! The quotient rounded to a natural number. -/

/-- The rounded quotient is within one half of the exact one. -/
theorem roundHalfEven_error (n : Nat) {d : Nat} (hd : 0 < d) : 2 * |(roundHalfEven n d : Int) * d - n| ≤ d := by
  have hlt := Nat.mod_lt n hd
  have hn : (n : Int) = d * (n / d : Nat) + (n % d : Nat) := by exact_mod_cast (Nat.div_add_mod n d).symm
  simp only [roundHalfEven]
  split_ifs with h
  · have hup : ((n / d + 1 : Nat) : Int) * d - n = d - (n % d : Nat) := by rw [hn]; push_cast; ring
    rw [hup, abs_of_nonneg] <;> omega
  · have hdown : ((n / d : Nat) : Int) * d - n = -((n % d : Nat) : Int) := by rw [hn]; ring
    rw [hdown, abs_neg, abs_of_nonneg] <;> omega

/-- No integer is nearer to the exact quotient than the rounded one. -/
theorem roundHalfEven_nearest (n : Nat) {d : Nat} (hd : 0 < d) (j : Int) :
    |(roundHalfEven n d : Int) * d - n| ≤ |j * d - n| := by
  have herr := roundHalfEven_error n hd
  obtain rfl | hj := eq_or_ne j (roundHalfEven n d)
  · exact le_rfl
  · have hstep : (d : Int) ≤ |j * d - roundHalfEven n d * d| := by
      rw [← sub_mul, abs_mul, Nat.abs_cast]
      exact le_mul_of_one_le_left (Int.natCast_nonneg d) (Int.one_le_abs (sub_ne_zero.mpr hj))
    have htri := abs_sub_le (j * d) (n : Int) (roundHalfEven n d * d)
    rw [abs_sub_comm (n : Int)] at htri
    linarith

theorem le_roundHalfEven {n d m : Nat} (hd : 0 < d) (h : m * d ≤ n) : m ≤ roundHalfEven n d := by
  have hq : m ≤ n / d := (Nat.le_div_iff_mul_le hd).mpr h
  simp only [roundHalfEven]
  split_ifs <;> omega

theorem roundHalfEven_le {n d m : Nat} (hd : 0 < d) (h : n ≤ m * d) : roundHalfEven n d ≤ m := by
  obtain rfl | hlt := h.eq_or_lt
  · rw [roundHalfEven, Nat.mul_div_cancel m hd, Nat.mul_mod_left]
    simp [hd.ne]
  · have hq : n / d < m := (Nat.div_lt_iff_lt_mul hd).mpr hlt
    simp only [roundHalfEven]
    split_ifs <;> omega

theorem roundHalfEven_mul_left {c : Nat} (n d : Nat) (hc : 0 < c) :
    roundHalfEven (c * n) (c * d) = roundHalfEven n d := by
  have hlt : c * d < 2 * (c * (n % d)) ↔ d < 2 * (n % d) := by
    rw [Nat.mul_left_comm, Nat.mul_lt_mul_left hc]
  have htie : 2 * (c * (n % d)) = c * d ↔ 2 * (n % d) = d := by
    rw [Nat.mul_left_comm, Nat.mul_right_inj hc.ne']
  simp only [roundHalfEven, Nat.mul_div_mul_left _ _ hc, Nat.mul_mod_mul_left, hlt, htie]

/-- Where no power of two is divided by, multiplying both sides of the quotient by one makes no difference. -/
theorem roundHalfEven_shift (n d : Nat) {k : Int} {b q : Nat} (h : k + b = q) :
    roundHalfEven (n * 2 ^ (-k).toNat) (d * 2 ^ k.toNat) = roundHalfEven (n * 2 ^ b) (d * 2 ^ q) := by
  obtain ⟨i, rfl⟩ : ∃ i, b = i + (-k).toNat := ⟨b - (-k).toNat, by omega⟩
  obtain rfl : q = i + k.toNat := by omega
  rw [Nat.pow_add, Nat.pow_add, Nat.mul_left_comm n, Nat.mul_left_comm d,
    roundHalfEven_mul_left _ _ (Nat.two_pow_pos i)]

/-! The exponent of the unit in the last place. -/

/-- The comparison with a power of two, multiplied out far enough that no exponent is negative. -/
theorem atLeastPow2_iff {n d c j : Nat} {e : Int} (h : e + c = j) :
    atLeastPow2 n d e = true ↔ d * 2 ^ j ≤ n * 2 ^ c := by
  obtain ⟨i, hi⟩ : ∃ i, c = (-e).toNat + i := ⟨c - (-e).toNat, by omega⟩
  have hj : j = e.toNat + i := by omega
  rw [atLeastPow2, decide_eq_true_iff, hi, hj, Nat.pow_add, Nat.pow_add, ← Nat.mul_assoc, ← Nat.mul_assoc,
    Nat.mul_le_mul_right_iff (Nat.two_pow_pos i)]

/-- `floorLog2` is the exponent of the greatest power of two that is at most the quotient. -/
theorem floorLog2_spec {n d : Nat} (hn : 0 < n) (hd : 0 < d) :
    atLeastPow2 n d (floorLog2 n d) = true ∧ atLeastPow2 n d (floorLog2 n d + 1) = false := by
  have hn1 := Nat.log2_self_le hn.ne'
  have hn2 := Nat.lt_log2_self (n := n)
  have hd1 := Nat.log2_self_le hd.ne'
  have hd2 := Nat.lt_log2_self (n := d)
  have hbelow : atLeastPow2 n d ((n.log2 : Int) - d.log2 - 1) = true := by
    rw [atLeastPow2_iff (c := d.log2 + 1) (j := n.log2) (by omega), Nat.mul_comm]
    exact Nat.mul_le_mul hn1 hd2.le
  have habove : atLeastPow2 n d ((n.log2 : Int) - d.log2 + 1) = false := by
    rw [← Bool.not_eq_true, atLeastPow2_iff (c := d.log2) (j := n.log2 + 1) (by omega), Nat.not_le, Nat.mul_comm d]
    exact Nat.mul_lt_mul_of_lt_of_le hn2 hd1 hd
  simp only [floorLog2]
  split_ifs with h
  · exact ⟨h, habove⟩
  · exact ⟨hbelow, by simpa using h⟩

/-- The exponent of the unit in the last place at `n / d`, counted from 2^-149: of the binary digits of the value in units
of 2^-149, those after the first 24. -/
def quantum (n d : Nat) : Nat :=
  Nat.log 2 (n * 2 ^ 149 / d) - 23

theorem quantum_mul_left {c : Nat} (n d : Nat) (hc : 0 < c) : quantum (c * n) (c * d) = quantum n d := by
  rw [quantum, quantum, Nat.mul_assoc, Nat.mul_div_mul_left _ _ hc]

theorem quantum_le {n d j : Nat} (h : n * 2 ^ 149 < d * 2 ^ (j + 24)) : quantum n d ≤ j := by
  have hlt : n * 2 ^ 149 / d < 2 ^ (j + 24) := Nat.div_lt_of_lt_mul h
  have hlog := Nat.log_lt_of_lt_pow' (b := 2) (by omega) hlt
  unfold quantum
  omega

theorem le_quantum {n d j : Nat} (hd : 0 < d) (h : d * 2 ^ (j + 23) ≤ n * 2 ^ 149) : j ≤ quantum n d := by
  have hle : 2 ^ (j + 23) ≤ n * 2 ^ 149 / d := by rwa [Nat.le_div_iff_mul_le hd, Nat.mul_comm]
  have hlog := Nat.le_log_of_pow_le (b := 2) (by omega) hle
  unfold quantum
  omega

/-- The value has at most 24 binary digits before the unit in the last place. -/
theorem lt_two_pow_quantum (n : Nat) {d : Nat} (hd : 0 < d) : n * 2 ^ 149 < d * 2 ^ quantum n d * 2 ^ 24 := by
  have hlog := Nat.lt_pow_succ_log_self (b := 2) (by omega) (n * 2 ^ 149 / d)
  have hpow : 2 ^ (Nat.log 2 (n * 2 ^ 149 / d) + 1) ≤ 2 ^ (quantum n d + 24) :=
    Nat.pow_le_pow_right (by omega) (by unfold quantum; omega)
  rw [Nat.mul_assoc, ← Nat.pow_add]
  exact (Nat.div_lt_iff_lt_mul hd).mp (hlog.trans_le hpow) |>.trans_eq (Nat.mul_comm _ _)

/-- A normal value has 24 binary digits, not fewer: `quantum` is 0 for the values that may have fewer. -/
theorem two_pow_quantum_le {n d : Nat} (hd : 0 < d) (hq : quantum n d ≠ 0) :
    d * 2 ^ quantum n d * 2 ^ 23 ≤ n * 2 ^ 149 := by
  have hexp : quantum n d + 23 = Nat.log 2 (n * 2 ^ 149 / d) := by
    unfold quantum at hq ⊢
    omega
  have hne : n * 2 ^ 149 / d ≠ 0 := by
    intro h0
    exact hq (by rw [quantum, h0, Nat.log_zero_right])
  have hlog := Nat.pow_log_le_self 2 hne
  rw [Nat.mul_assoc, ← Nat.pow_add, hexp, Nat.mul_comm]
  exact (Nat.le_div_iff_mul_le hd).mp hlog

/-- The model's exponent of the unit in the last place, counted from 2^-149. -/
theorem ulpExponent_add {n d : Nat} (hn : 0 < n) (hd : 0 < d) : ulpExponent n d + 149 = quantum n d := by
  obtain ⟨hlo, hhi⟩ := floorLog2_spec hn hd
  rw [← Bool.not_eq_true] at hhi
  unfold ulpExponent quantum
  obtain hneg | hpos := lt_or_ge (floorLog2 n d + 149) 0
  · obtain ⟨c, hc⟩ : ∃ c : Nat, floorLog2 n d + 1 + c = (0 : Nat) := ⟨(-(floorLog2 n d + 1)).toNat, by omega⟩
    rw [atLeastPow2_iff hc, Nat.not_le, Nat.pow_zero, Nat.mul_one] at hhi
    have hunits : n * 2 ^ 149 < d :=
      (Nat.mul_le_mul_left n (Nat.pow_le_pow_right (by omega) (by omega : 149 ≤ c))).trans_lt hhi
    rw [Nat.div_eq_of_lt hunits, Nat.log_zero_right]
    omega
  · obtain ⟨l, hl⟩ := Int.eq_ofNat_of_zero_le hpos
    rw [atLeastPow2_iff (c := 149) (j := l) (by omega)] at hlo
    rw [atLeastPow2_iff (c := 149) (j := l + 1) (by omega), Nat.not_le] at hhi
    have hlog : Nat.log 2 (n * 2 ^ 149 / d) = l := by
      refine Nat.log_eq_of_pow_le_of_lt_pow ?_ (Nat.div_lt_of_lt_mul hhi)
      rwa [Nat.le_div_iff_mul_le hd, Nat.mul_comm]
    rw [hlog]
    omega

/-! A magnitude rounded to binary32. -/

/-- The significand of the magnitude: how many units in the last place it has. -/
def significand (n d : Nat) : Nat :=
  roundHalfEven (n * 2 ^ 149) (d * 2 ^ quantum n d)

/-- The rounded magnitude in units of 2^-149. -/
def roundedUnits (n d : Nat) : Nat :=
  significand n d * 2 ^ quantum n d

theorem significand_mul_left {c : Nat} (n d : Nat) (hc : 0 < c) : significand (c * n) (c * d) = significand n d := by
  rw [significand, significand, quantum_mul_left n d hc, Nat.mul_assoc, Nat.mul_assoc, roundHalfEven_mul_left _ _ hc]

section Significand

variable (n : Nat) {d : Nat} (hd : 0 < d)

include hd

/-- The rounded magnitude is within half a unit in the last place of the exact one. -/
theorem roundedUnits_error :
    2 * |(roundedUnits n d : Int) * d - (n * 2 ^ 149 : Nat)| ≤ (d * 2 ^ quantum n d : Nat) := by
  have herr := roundHalfEven_error (n * 2 ^ 149) (Nat.mul_pos hd (Nat.two_pow_pos (quantum n d)))
  rwa [← Nat.cast_mul, Nat.mul_left_comm, Nat.mul_comm d] at herr

theorem significand_le : significand n d ≤ 2 ^ 24 := by
  refine roundHalfEven_le (Nat.mul_pos hd (Nat.two_pow_pos _)) ?_
  rw [Nat.mul_comm (2 ^ 24)]
  exact (lt_two_pow_quantum n hd).le

theorem le_significand (hq : quantum n d ≠ 0) : 2 ^ 23 ≤ significand n d := by
  refine le_roundHalfEven (Nat.mul_pos hd (Nat.two_pow_pos _)) ?_
  rw [Nat.mul_comm (2 ^ 23)]
  exact two_pow_quantum_le hd hq

end Significand

/-- The model's rounding of the significand is that of the value in units of 2^-149. -/
theorem roundHalfEven_ulpExponent {n d : Nat} (hn : 0 < n) (hd : 0 < d) :
    roundHalfEven (n * 2 ^ (-ulpExponent n d).toNat) (d * 2 ^ (ulpExponent n d).toNat) = significand n d :=
  roundHalfEven_shift n d (ulpExponent_add hn hd)

/-- The pattern of a magnitude: the unit's exponent above the 23 fraction bits, and the significand added to it, whose
leading bit raises the exponent field by one; at 0x7F800000 the magnitude is infinite (R109). -/
theorem rneMagnitude_eq_min {n d : Nat} (hn : 0 < n) (hd : 0 < d) :
    rneMagnitude n d = min (quantum n d * 2 ^ 23 + significand n d) 0x7F800000 := by
  have hdef : rneMagnitude n d = min ((ulpExponent n d + 149).toNat * 2 ^ 23 +
      roundHalfEven (n * 2 ^ (-ulpExponent n d).toNat) (d * 2 ^ (ulpExponent n d).toNat)) 0x7F800000 := by
    rw [rneMagnitude, if_neg hn.ne']
  rw [hdef, roundHalfEven_ulpExponent hn hd, ulpExponent_add hn hd, Int.toNat_natCast]

/-- The exponent field stays below 255 where the unit in the last place is at most 2^103. -/
theorem quantum_add_significand_lt (n : Nat) {d : Nat} (hd : 0 < d) (hq : quantum n d ≤ 252) :
    quantum n d * 2 ^ 23 + significand n d < 0x7F800000 := by
  have hm := significand_le n hd
  omega

theorem rneMagnitude_eq {n d : Nat} (hn : 0 < n) (hd : 0 < d) (hq : quantum n d ≤ 252) :
    rneMagnitude n d = quantum n d * 2 ^ 23 + significand n d := by
  rw [rneMagnitude_eq_min hn hd, min_eq_left (quantum_add_significand_lt n hd hq).le]

theorem rneMagnitude_mul_left {c n d : Nat} (hc : 0 < c) (hd : 0 < d) :
    rneMagnitude (c * n) (c * d) = rneMagnitude n d := by
  obtain rfl | hn := n.eq_zero_or_pos
  · rw [Nat.mul_zero, rneMagnitude, rneMagnitude, if_pos rfl, if_pos rfl]
  · rw [rneMagnitude_eq_min (Nat.mul_pos hc hn) (Nat.mul_pos hc hd), rneMagnitude_eq_min hn hd, quantum_mul_left n d hc,
      significand_mul_left n d hc]

/-! The values the rounded magnitude is compared with. -/

/-- The multiples of a unit 2^a, and, where the unit is not the least, whatever lies below 2^23 units in magnitude. -/
def OnGrid (a : Nat) (z : Int) : Prop :=
  (2 : Int) ^ a ∣ z ∨ (a ≠ 0 ∧ |z| < 2 ^ (a + 23))

theorem OnGrid.neg {a : Nat} {z : Int} (h : OnGrid a z) : OnGrid a (-z) := by
  simpa [OnGrid] using h

/-- Every binary32 value is on the grid of every unit: its own 24 digits reach down to the unit, or end below 2^23 units. -/
theorem onGrid_f32Scaled (a : Nat) (p : Word32) : OnGrid a (f32Scaled p) := by
  have hfrac : f32Fraction p < 2 ^ 23 := BitVec.isLt _
  obtain ⟨m, e, hm, hp⟩ : ∃ m e : Nat, m < 2 ^ 24 ∧ |f32Scaled p| = (m * 2 ^ e : Nat) := by
    by_cases h0 : f32Exponent p = 0
    · refine ⟨f32Fraction p, 0, by omega, ?_⟩
      simp only [f32Scaled, if_pos h0]
      split_ifs <;> simp
    · refine ⟨2 ^ 23 + f32Fraction p, f32Exponent p - 1, by omega, ?_⟩
      simp only [f32Scaled, if_neg h0]
      split_ifs
      · rw [abs_neg, Nat.abs_cast]
      · rw [Nat.abs_cast]
  obtain hae | hea := le_or_gt a e
  · refine .inl ((dvd_abs _ _).mp ?_)
    rw [hp]
    push_cast
    exact (pow_dvd_pow 2 hae).mul_left _
  · refine .inr ⟨by omega, ?_⟩
    have hlt : m * 2 ^ e < 2 ^ 24 * 2 ^ e := Nat.mul_lt_mul_of_pos_right hm (Nat.two_pow_pos e)
    have hle : 2 ^ 24 * 2 ^ e ≤ 2 ^ (a + 23) := by
      rw [← Nat.pow_add]
      exact Nat.pow_le_pow_right (by omega) (by omega)
    rw [hp]
    exact_mod_cast hlt.trans_le hle

/-- No value on the unit's grid is nearer to the exact magnitude than the rounded one. -/
theorem roundedUnits_nearest (n : Nat) {d : Nat} (hd : 0 < d) {z : Int} (hz : OnGrid (quantum n d) z) :
    |(roundedUnits n d : Int) * d - (n * 2 ^ 149 : Nat)| ≤ |z * d - (n * 2 ^ 149 : Nat)| := by
  have hnear := roundHalfEven_nearest (n * 2 ^ 149) (Nat.mul_pos hd (Nat.two_pow_pos (quantum n d)))
  have hunits : (roundedUnits n d : Int) * d =
      (roundHalfEven (n * 2 ^ 149) (d * 2 ^ quantum n d) : Int) * (d * 2 ^ quantum n d : Nat) := by
    rw [roundedUnits, significand, ← Nat.cast_mul, ← Nat.cast_mul, Nat.mul_assoc, Nat.mul_comm d]
  rw [hunits]
  obtain ⟨j, rfl⟩ | ⟨hq, hlt⟩ := hz
  · have hj : (2 : Int) ^ quantum n d * j * d = j * (d * 2 ^ quantum n d : Nat) := by
      push_cast
      ring
    rw [hj]
    exact hnear j
  · have hlow : z * d ≤ (2 ^ 23 : Nat) * (d * 2 ^ quantum n d : Nat) := by
      have hz : z ≤ 2 ^ (quantum n d + 23) := (le_abs_self z).trans hlt.le
      calc z * d ≤ 2 ^ (quantum n d + 23) * d := mul_le_mul_of_nonneg_right hz (Int.natCast_nonneg d)
        _ = _ := by push_cast; ring
    have hhigh : ((2 ^ 23 : Nat) : Int) * (d * 2 ^ quantum n d : Nat) ≤ (n * 2 ^ 149 : Nat) := by
      rw [← Nat.cast_mul, Nat.mul_comm]
      exact Int.ofNat_le.mpr (two_pow_quantum_le hd hq)
    refine (hnear (2 ^ 23 : Nat)).trans ?_
    rw [abs_of_nonpos (by linarith), abs_of_nonpos (by linarith)]
    linarith

/-! The pattern: its fields and its value. -/

/-- A pattern from its sign and its exponent and fraction bits (R109). -/
def signedPattern (neg : Bool) (p : Nat) : Word32 :=
  BitVec.ofNat 32 ((if neg then 2 ^ 31 else 0) + p)

theorem rne32_eq_signedPattern (num : Int) (den : Nat) :
    rne32 num den = signedPattern (decide (num < 0)) (rneMagnitude num.natAbs den) := by
  simp [rne32, signedPattern]

section SignedPattern

variable (neg : Bool) {p : Nat} (hp : p < 2 ^ 31)

include hp

theorem signedPattern_toNat : (signedPattern neg p).toNat = (if neg then 2 ^ 31 else 0) + p := by
  rw [signedPattern, BitVec.toNat_ofNat]
  split_ifs <;> omega

theorem msb_signedPattern : (signedPattern neg p).msb = neg := by
  rw [BitVec.msb_eq_decide, signedPattern_toNat neg hp]
  cases neg <;> simp only [Bool.false_eq_true, if_true, if_false, decide_eq_true_eq, decide_eq_false_iff_not] <;> omega

theorem f32Exponent_signedPattern : f32Exponent (signedPattern neg p) = p / 2 ^ 23 := by
  rw [f32Exponent, BitVec.extractLsb'_toNat, signedPattern_toNat neg hp, Nat.shiftRight_eq_div_pow]
  split_ifs <;> omega

theorem f32Fraction_signedPattern : f32Fraction (signedPattern neg p) = p % 2 ^ 23 := by
  rw [f32Fraction, BitVec.extractLsb'_toNat, signedPattern_toNat neg hp, Nat.shiftRight_zero]
  split_ifs <;> omega

end SignedPattern

/-- The value of a pattern: subnormal, normal, and normal after a carry out of the fraction, all in one (R109). -/
theorem f32Scaled_signedPattern (neg : Bool) {a m : Nat} (hm : m ≤ 2 ^ 24) (ha : a ≠ 0 → 2 ^ 23 ≤ m)
    (hp : a * 2 ^ 23 + m < 2 ^ 31) :
    f32Scaled (signedPattern neg (a * 2 ^ 23 + m)) = (if neg then -1 else 1) * (m * 2 ^ a : Nat) := by
  have hmag : (if f32Exponent (signedPattern neg (a * 2 ^ 23 + m)) = 0 then
        f32Fraction (signedPattern neg (a * 2 ^ 23 + m))
      else (2 ^ 23 + f32Fraction (signedPattern neg (a * 2 ^ 23 + m))) *
        2 ^ (f32Exponent (signedPattern neg (a * 2 ^ 23 + m)) - 1)) = m * 2 ^ a := by
    rw [f32Exponent_signedPattern neg hp, f32Fraction_signedPattern neg hp]
    obtain hsub | hnorm | rfl : m < 2 ^ 23 ∨ (2 ^ 23 ≤ m ∧ m < 2 ^ 24) ∨ m = 2 ^ 24 := by omega
    · obtain rfl : a = 0 := by omega
      have hexp : (0 * 2 ^ 23 + m) / 2 ^ 23 = 0 := by omega
      have hfrac : (0 * 2 ^ 23 + m) % 2 ^ 23 = m := by omega
      rw [hexp, hfrac, if_pos rfl, Nat.pow_zero, Nat.mul_one]
    · have hexp : (a * 2 ^ 23 + m) / 2 ^ 23 = a + 1 := by omega
      have hfrac : 2 ^ 23 + (a * 2 ^ 23 + m) % 2 ^ 23 = m := by omega
      rw [hexp, hfrac, if_neg (by omega), Nat.add_sub_cancel]
    · have hexp : (a * 2 ^ 23 + 2 ^ 24) / 2 ^ 23 = a + 2 := by omega
      have hfrac : 2 ^ 23 + (a * 2 ^ 23 + 2 ^ 24) % 2 ^ 23 = 2 ^ 23 := by omega
      rw [hexp, hfrac, if_neg (by omega), ← Nat.pow_add, ← Nat.pow_add,
        show 23 + (a + 2 - 1) = 24 + a by omega]
  simp only [f32Scaled, hmag, msb_signedPattern neg hp]
  cases neg <;> simp

/-! `RNE32`: its value, how far it is from the exact one, and that no binary32 value is nearer. -/

section Rne32

variable (num : Int) {den : Nat} (hd : 0 < den)

theorem rne32_mul_left {c : Nat} (hc : 0 < c) (hd : 0 < den) : rne32 (c * num) (c * den) = rne32 num den := by
  have hsign : (c : Int) * num < 0 ↔ num < 0 := by simp [mul_neg_iff, hc]
  rw [rne32, rne32, Int.natAbs_mul, Int.natAbs_natCast, rneMagnitude_mul_left hc hd]
  simp only [hsign]

include hd

/-- The value of the rounded pattern, where it is finite. -/
theorem f32Scaled_rne32 (hq : quantum num.natAbs den ≤ 252) :
    f32Scaled (rne32 num den) = num.sign * roundedUnits num.natAbs den := by
  obtain rfl | hne := eq_or_ne num 0
  · simp [rne32, rneMagnitude, f32Scaled, f32Exponent, f32Fraction]
  · have hlt := quantum_add_significand_lt num.natAbs hd hq
    rw [rne32_eq_signedPattern, rneMagnitude_eq (Int.natAbs_pos.mpr hne) hd hq,
      f32Scaled_signedPattern _ (significand_le _ hd) (le_significand _ hd) (by omega), roundedUnits]
    obtain hneg | hpos := lt_or_gt_of_ne hne
    · simp [hneg, Int.sign_eq_neg_one_of_neg]
    · simp [not_lt_of_gt hpos, Int.sign_eq_one_of_pos hpos]

/-- The distance from the exact value is that of the magnitudes, with the sign of the value. -/
theorem f32Scaled_rne32_sub (hq : quantum num.natAbs den ≤ 252) :
    f32Scaled (rne32 num den) * den - num * 2 ^ 149 =
      num.sign * (roundedUnits num.natAbs den * den - (num.natAbs * 2 ^ 149 : Nat)) := by
  rw [f32Scaled_rne32 num hd hq]
  nth_rw 3 [← Int.sign_mul_natAbs num]
  push_cast
  ring

/-- The result is within half a unit in the last place of the exact value (R12). -/
theorem rne32_error (hq : quantum num.natAbs den ≤ 252) :
    2 * |f32Scaled (rne32 num den) * den - num * 2 ^ 149| ≤ ((den * 2 ^ quantum num.natAbs den : Nat) : Int) := by
  have herr := roundedUnits_error num.natAbs hd
  rw [f32Scaled_rne32_sub num hd hq, abs_mul]
  obtain rfl | hne := eq_or_ne num 0
  · simp
  · rwa [Int.abs_sign_of_ne_zero hne, one_mul]

/-- No value on the grid of the result's unit is nearer to the exact value than the result (R12). -/
theorem rne32_nearest (hq : quantum num.natAbs den ≤ 252) {z : Int} (hz : OnGrid (quantum num.natAbs den) z) :
    |f32Scaled (rne32 num den) * den - num * 2 ^ 149| ≤ |z * den - num * 2 ^ 149| := by
  obtain rfl | hne := eq_or_ne num 0
  · rw [f32Scaled_rne32_sub 0 hd hq, Int.sign_zero, zero_mul, abs_zero]
    exact abs_nonneg _
  · have hsq : num.sign * num.sign = 1 := by rw [← sq, ← sq_abs, Int.abs_sign_of_ne_zero hne, one_pow]
    have hgrid : OnGrid (quantum num.natAbs den) (num.sign * z) := by
      obtain hneg | hpos := lt_or_gt_of_ne hne
      · rw [Int.sign_eq_neg_one_of_neg hneg, neg_one_mul]
        exact hz.neg
      · rwa [Int.sign_eq_one_of_pos hpos, one_mul]
    have hflip : z * den - num * 2 ^ 149 = num.sign * (num.sign * z * den - (num.natAbs * 2 ^ 149 : Nat)) := by
      nth_rw 1 [← Int.sign_mul_natAbs num]
      push_cast
      linear_combination -(z * den) * hsq
    rw [f32Scaled_rne32_sub num hd hq, hflip, abs_mul, abs_mul, Int.abs_sign_of_ne_zero hne, one_mul, one_mul]
    exact roundedUnits_nearest num.natAbs hd hgrid

/-- A value that is a multiple of the unit in its last place is not rounded. -/
theorem f32Scaled_rne32_of_exact {z : Int} (hz : z * den = num * 2 ^ 149) {a : Nat} (ha : a ≤ 252)
    (hq : num.natAbs * 2 ^ 149 < den * 2 ^ (a + 24)) (hdvd : 2 ^ a ∣ z) : f32Scaled (rne32 num den) = z := by
  have hle := quantum_le hq
  have hnear := rne32_nearest num hd (hle.trans ha) (.inl ((pow_dvd_pow 2 hle).trans hdvd))
  rw [hz, sub_self, abs_zero, abs_nonpos_iff, sub_eq_zero, ← hz] at hnear
  exact mul_right_cancel₀ (Int.natCast_ne_zero.mpr hd.ne') hnear

end Rne32

end Sys2Proof

/-! PROOFS. Proofs/Convert.lean: the results of `CONVERT` (R105, R109) and how the conversion with every intermediate in
binary32 compares with it (R110): the statements cited from 40_validator_decoder.md about temperatures. -/

namespace Sys2Proof

/-! The exact temperature and its unit in the last place. -/

theorem raw12_lt (b1 b2 : Byte) : raw12 b1 b2 < 65536 := by
  have h1 := b1.isLt
  have h2 := b2.isLt
  unfold raw12
  omega

/-- The exact temperature changes sign between magnitudes 4370 and 4371 (R109). -/
theorem celsiusNumerator_neg_iff (raw : Nat) : celsiusNumerator raw < 0 ↔ raw ≤ 4370 := by
  rw [celsiusNumerator_eq]
  omega

/-- No temperature is zero: the nearest to it is that of magnitude 4370 (R109). -/
theorem celsiusNumerator_natAbs_ge (raw : Nat) : 250 ≤ (celsiusNumerator raw).natAbs := by
  rw [celsiusNumerator_eq]
  omega

theorem celsiusNumerator_natAbs_lt {raw : Nat} (h : raw < 65536) : (celsiusNumerator raw).natAbs < 10000 * 2 ^ 12 := by
  rw [celsiusNumerator_eq]
  omega

/-- No temperature is so small that it would be subnormal. -/
theorem quantum_celsius_pos (raw : Nat) : 1 ≤ quantum (celsiusNumerator raw).natAbs 10000 := by
  have hge := celsiusNumerator_natAbs_ge raw
  refine le_quantum (by omega) ?_
  omega

/-- The spacing of binary32 at a temperature is at most 2^-12 degrees (R109). -/
theorem quantum_celsius_le {raw : Nat} (h : raw < 65536) : quantum (celsiusNumerator raw).natAbs 10000 ≤ 137 := by
  have hlt := celsiusNumerator_natAbs_lt h
  refine quantum_le ?_
  omega

/-! The results of `CONVERT`. -/

/-- `CONVERT`'s exponent and fraction bits (R109). -/
theorem convertExact_eq_signedPattern {raw : Nat} (h : raw < 65536) :
    convertExact raw = signedPattern (decide (celsiusNumerator raw < 0))
      (quantum (celsiusNumerator raw).natAbs 10000 * 2 ^ 23 + significand (celsiusNumerator raw).natAbs 10000) := by
  have hge := celsiusNumerator_natAbs_ge raw
  have hq := quantum_celsius_le h
  rw [convertExact, rne32_eq_signedPattern, rneMagnitude_eq (by omega) (by omega) (by omega)]

/-- Every temperature is a normal number with the sign of the exact one (R109). -/
theorem convertExact_normal {raw : Nat} (h : raw < 65536) :
    1 ≤ f32Exponent (convertExact raw) ∧ f32Exponent (convertExact raw) ≤ 254 ∧
      ((convertExact raw).msb = true ↔ raw ≤ 4370) := by
  have hpos := quantum_celsius_pos raw
  have hq := quantum_celsius_le h
  have hlt := quantum_add_significand_lt (celsiusNumerator raw).natAbs (d := 10000) (by omega) (by omega)
  rw [convertExact_eq_signedPattern h, f32Exponent_signedPattern _ (by omega), msb_signedPattern _ (by omega),
    decide_eq_true_iff, celsiusNumerator_neg_iff]
  exact ⟨by omega, by omega, Iff.rfl⟩

/-- A temperature is within half a unit in the last place of the exact value (R105). -/
theorem convertExact_error {raw a : Nat} (hq : quantum (celsiusNumerator raw).natAbs 10000 ≤ a) (ha : a ≤ 252) :
    2 * |f32Scaled (convertExact raw) * 10000 - celsiusNumerator raw * 2 ^ 149| ≤ 10000 * 2 ^ a := by
  have herr := rne32_error (celsiusNumerator raw) (den := 10000) (by omega) (hq.trans ha)
  have hpow : 10000 * 2 ^ quantum (celsiusNumerator raw).natAbs 10000 ≤ 10000 * 2 ^ a :=
    Nat.mul_le_mul_left _ (Nat.pow_le_pow_right (by omega) hq)
  exact herr.trans (by exact_mod_cast hpow)

/-! The conversion with every intermediate in binary32 (R110): only its subtraction rounds. -/

/-- A magnitude is exact in binary32. -/
theorem f32Scaled_rne32_natCast {n : Nat} (h : n < 2 ^ 24) : f32Scaled (rne32 n 1) = n * 2 ^ 149 :=
  f32Scaled_rne32_of_exact (a := 149) n one_pos (by simp) (by omega) (by rw [Int.natAbs_natCast]; omega)
    (dvd_mul_left _ _)

theorem fdiv32_eq {a b : Word32} (hb : 0 < f32Scaled b) : fdiv32 a b = rne32 (f32Scaled a) (f32Scaled b).natAbs := by
  rw [fdiv32, if_neg (not_lt_of_gt hb)]

/-- The division by 16 is exact in binary32. -/
theorem f32Scaled_fdiv32_scale {raw : Nat} (h : raw < 65536) :
    f32Scaled (fdiv32 (rne32 raw 1) (rne32 config.scaleDivisor 1)) = raw * 2 ^ 145 := by
  have hdivisor : f32Scaled (rne32 config.scaleDivisor 1) = (2 ^ 153 : Nat) := by decide
  rw [fdiv32_eq (by rw [hdivisor]; omega), f32Scaled_rne32_natCast (by omega), hdivisor, Int.natAbs_natCast]
  refine f32Scaled_rne32_of_exact (a := 145) _ (by omega) (by push_cast; ring) (by omega) ?_ (dvd_mul_left _ _)
  omega

/-- The offset in binary32 is 8950579 units of 2^-15, a fifth of a unit below 273.15 (R110). -/
theorem f32Scaled_offset : f32Scaled (rne32 config.kelvinOffsetHundredths 100) = 8950579 * 2 ^ 134 := by decide

theorem convertChain_eq {raw : Nat} (h : raw < 65536) :
    convertChain raw = rne32 ((2048 * raw - 8950579) * 2 ^ 134) (2 ^ 149) := by
  rw [convertChain, fsub32, f32Scaled_fdiv32_scale h, f32Scaled_offset]
  congr 1
  ring

/-- Both conversions over one denominator, 163840 = 5 * 2^15: the numerators are next to each other (R110). -/
theorem convertExact_eq (raw : Nat) : convertExact raw = rne32 (10240 * raw - 44752896) 163840 := by
  rw [convertExact, celsiusNumerator_eq, ← rne32_mul_left (10240 * raw - 44752896) (c := 125) (by omega) (by omega),
    ← rne32_mul_left (625 * raw - 2731500) (c := 2048) (by omega) (by omega)]
  congr 1
  push_cast
  ring

theorem convertChain_eq_succ {raw : Nat} (h : raw < 65536) :
    convertChain raw = rne32 (10240 * raw - 44752895) 163840 := by
  rw [convertChain_eq h, ← rne32_mul_left ((2048 * raw - 8950579) * 2 ^ 134) (c := 5) (by omega) (by omega),
    ← rne32_mul_left (10240 * raw - 44752895) (c := 2 ^ 134) (by omega) (by omega)]
  congr 1
  push_cast
  ring

/-- From -128 to 128 degrees half a unit in the last place is less than what the chain adds to the exact value (R110). -/
theorem convertChain_ne_convertExact {raw : Nat} (hlo : 2323 ≤ raw) (hhi : raw ≤ 6418) :
    convertChain raw ≠ convertExact raw := by
  have hchain : f32Scaled (convertChain raw) = (2048 * raw - 8950579) * 2 ^ 134 := by
    rw [convertChain_eq (by omega)]
    refine f32Scaled_rne32_of_exact (a := 134) _ (by omega) (by push_cast; ring) (by omega) ?_ (dvd_mul_left _ _)
    omega
  have hq : quantum (celsiusNumerator raw).natAbs 10000 ≤ 132 := by
    refine quantum_le ?_
    rw [celsiusNumerator_eq]
    omega
  have herr := convertExact_error hq (by omega)
  intro heq
  rw [← heq, hchain, celsiusNumerator_eq] at herr
  have habs := le_abs_self ((2048 * raw - 8950579) * 2 ^ 134 * 10000 - (625 * raw - 2731500) * 2 ^ 149 : Int)
  omega

/-- The pattern of a magnitude between 2^e and 2^(e+1), with the rounding done in small numbers. -/
theorem rneMagnitude_of_binade {n d e : Nat} (hd : 0 < d) (he : e ≤ 23) (hlo : d * 2 ^ e ≤ n)
    (hhi : n < d * 2 ^ (e + 1)) :
    rneMagnitude n d = (e + 126) * 2 ^ 23 + roundHalfEven (n * 2 ^ (23 - e)) d := by
  have hlow : d * 2 ^ (e + 126 + 23) ≤ n * 2 ^ 149 := by
    rw [Nat.add_assoc, Nat.pow_add, ← Nat.mul_assoc]
    exact Nat.mul_le_mul_right _ hlo
  have hhigh : n * 2 ^ 149 < d * 2 ^ (e + 126 + 24) := by
    rw [show e + 126 + 24 = e + 1 + 149 by omega, Nat.pow_add, ← Nat.mul_assoc]
    exact Nat.mul_lt_mul_of_pos_right hhi (Nat.two_pow_pos 149)
  have hq : quantum n d = e + 126 := le_antisymm (quantum_le hhigh) (le_quantum hd hlow)
  have hn : 0 < n := (Nat.mul_pos hd (Nat.two_pow_pos e)).trans_le hlo
  rw [rneMagnitude_eq hn hd (by omega), significand, hq, ← roundHalfEven_mul_left (n * 2 ^ (23 - e)) d
    (Nat.two_pow_pos (e + 126)), Nat.mul_left_comm, ← Nat.pow_add, Nat.mul_comm d,
    show e + 126 + (23 - e) = 149 by omega]

/-- The binade of a temperature from 128 to 4096 degrees, from its distance in magnitudes from 4370. -/
theorem exists_binade {t : Nat} (hlo : 2048 ≤ t) (hhi : t < 65536) :
    ∃ e, 7 ≤ e ∧ e ≤ 11 ∧ 2 ^ e * 2 ^ 4 ≤ t ∧ t < 2 ^ (e + 1) * 2 ^ 4 := by
  have h11 : 11 ≤ Nat.log 2 t := Nat.le_log_of_pow_le (by omega) hlo
  have h16 : Nat.log 2 t < 16 := Nat.log_lt_of_lt_pow (by omega) hhi
  obtain ⟨e, he⟩ : ∃ e, Nat.log 2 t = e + 4 := ⟨Nat.log 2 t - 4, by omega⟩
  have hlow : 2 ^ (e + 4) ≤ t := he ▸ Nat.pow_log_le_self 2 (by omega)
  have hhigh : t < 2 ^ (e + 4 + 1) := he ▸ Nat.lt_pow_succ_log_self (by omega) t
  rw [Nat.pow_add] at hlow
  rw [Nat.add_right_comm, Nat.pow_add] at hhigh
  exact ⟨e, by omega, by omega, hlow, hhigh⟩

/-- From 128 degrees up the unit in the last place is at least 2^-16, and the two numerators round to the same number of
units: the exact one leaves the remainder 6144 modulo 10240 where it is positive and 4096 where it is negative, which
is the larger of its two (R110). -/
theorem rneMagnitude_succ_eq {t r : Nat} (hlo : 2048 ≤ t) (hhi : t < 65536) (hr : r = 6144 ∨ r = 4095) :
    rneMagnitude (10240 * t + r) 163840 = rneMagnitude (10240 * t + r + 1) 163840 := by
  obtain ⟨e, h7, h11, hlow, hhigh⟩ := exists_binade hlo hhi
  rw [rneMagnitude_of_binade (e := e) (by omega) (by omega) (by omega) (by omega),
    rneMagnitude_of_binade (e := e) (by omega) (by omega) (by omega) (by omega)]
  clear hlow hhigh
  congr 1
  simp only [roundHalfEven]
  interval_cases e <;> split_ifs <;> omega

theorem convertChain_eq_convertExact {raw : Nat} (h : raw < 65536) (hout : ¬(2323 ≤ raw ∧ raw ≤ 6418)) :
    convertChain raw = convertExact raw := by
  have hsign : decide ((10240 * raw - 44752895 : Int) < 0) = decide ((10240 * raw - 44752896 : Int) < 0) := by
    rw [decide_eq_decide]
    omega
  rw [convertChain_eq_succ h, convertExact_eq, rne32_eq_signedPattern, rne32_eq_signedPattern, hsign]
  obtain hneg | hpos : raw ≤ 2322 ∨ 6419 ≤ raw := by omega
  · have hchain : (10240 * raw - 44752895 : Int).natAbs = 10240 * (4370 - raw) + 4095 := by omega
    have hexact : (10240 * raw - 44752896 : Int).natAbs = 10240 * (4370 - raw) + 4095 + 1 := by omega
    rw [hchain, hexact, rneMagnitude_succ_eq (by omega) (by omega) (.inr rfl)]
  · have hchain : (10240 * raw - 44752895 : Int).natAbs = 10240 * (raw - 4371) + 6144 + 1 := by omega
    have hexact : (10240 * raw - 44752896 : Int).natAbs = 10240 * (raw - 4371) + 6144 := by omega
    rw [hchain, hexact, rneMagnitude_succ_eq (by omega) (by omega) (.inl rfl)]

/-! The statements. -/

namespace Machine

/-- Settles O33: `convertExact_normal`, at the magnitude of the two bytes. -/
theorem convertIsNormalWithTheRightSign : Obligations.ConvertIsNormalWithTheRightSign := by
  intro b1 b2
  exact convertExact_normal (raw12_lt b1 b2)

/-- Settles O32: every binary32 value is on the grid of the result's unit, and on the grid none is nearer. -/
theorem convertIsTheNearestValue : Obligations.ConvertIsTheNearestValue := by
  intro b1 b2 p _
  have hraw := raw12_lt b1 b2
  obtain ⟨_, hle, _⟩ := convertExact_normal hraw
  have hq := quantum_celsius_le hraw
  have hnear := rne32_nearest (celsiusNumerator (raw12 b1 b2)) (den := 10000) (by omega) (by omega)
    (onGrid_f32Scaled _ p)
  refine ⟨decide_eq_true (Nat.lt_succ_of_le hle), ?_⟩
  rw [Int.abs_eq_natAbs, Int.abs_eq_natAbs] at hnear
  exact Int.ofNat_le.mp hnear

/-- Settles O34: the exact values are 1/16 degree apart and each result is within 2^-13 degree of its own. -/
theorem convertIsStrictlyIncreasing : Obligations.ConvertIsStrictlyIncreasing := by
  intro a1 a2 b1 b2 hlt
  change f32Scaled (convertExact (raw12 a1 a2)) < f32Scaled (convertExact (raw12 b1 b2))
  have ha := convertExact_error (quantum_celsius_le (raw12_lt a1 a2)) (by omega)
  have hb := convertExact_error (quantum_celsius_le (raw12_lt b1 b2)) (by omega)
  have hstep : celsiusNumerator (raw12 a1 a2) + 625 ≤ celsiusNumerator (raw12 b1 b2) := by
    rw [celsiusNumerator_eq, celsiusNumerator_eq]
    omega
  have ha' := le_abs_self (f32Scaled (convertExact (raw12 a1 a2)) * 10000 - celsiusNumerator (raw12 a1 a2) * 2 ^ 149)
  have hb' := neg_abs_le (f32Scaled (convertExact (raw12 b1 b2)) * 10000 - celsiusNumerator (raw12 b1 b2) * 2 ^ 149)
  omega

/-- Settles O36: inside the range the exact result is too near the exact value to be the chain's, and outside both round to
the same number of units. -/
theorem chainConversionDiffersExactlyInside : Obligations.ChainConversionDiffersExactlyInside := by
  intro raw h
  exact ⟨fun heq ⟨hlo, hhi⟩ => convertChain_ne_convertExact hlo hhi heq, convertChain_eq_convertExact h⟩

/-- Settles O35: each of the four patterns is computed. -/
theorem convertExtremes : Obligations.ConvertExtremes := by
  unfold Obligations.ConvertExtremes
  decide

end Machine

end Sys2Proof

/-! PROOFS. Proofs/EventReader.lean: the conversion window (R120, R121, R128), one falling edge (R122, R124), and the forty
that bring in a frame (R127, R130): the statements cited from 41_event_reader.md. -/

namespace Sys2Proof.Machine

/-! The register file, left alone. -/

theorem SameRegisters.of_fields {s t : State} (hxo : t.xObj = s.xObj) (hxe : t.xEnv = s.xEnv)
    (huo : t.updObj = s.updObj) (hue : t.updEnv = s.updEnv) : SameRegisters s t
  | .obj => ⟨hxo, huo⟩
  | .env => ⟨hxe, hue⟩

theorem SameRegisters.trans {s t u : State} (h : SameRegisters s t) (h' : SameRegisters t u) : SameRegisters s u :=
  fun ch => ⟨(h' ch).value.trans (h ch).value, (h' ch).flag.trans (h ch).flag⟩

/-- A register file unchanged before a `VALIDATE` may be left out of account. -/
theorem Validated.of_sameRegisters {f : Frame} {s t u : State} (h : SameRegisters s t) (hv : Validated f t u) :
    Validated f s u := by
  intro ch
  obtain ⟨hupdates, hkeeps⟩ := hv ch
  refine ⟨hupdates, fun hn => ?_⟩
  obtain ⟨hx, hu⟩ := hkeeps hn
  exact ⟨hx.trans (h ch).value, hu.trans (h ch).flag⟩

/-! The conversion window. -/

section Window

variable {s : State}

theorem exec_start_of_capable (hp : s.phase = .idle) (hc : s.edgeCapable = true) :
    exec .start s = .next ({ s with armed := true, bitIndex := 0, ack := false }.respond 1) := by
  change execStart s = _
  rw [execStart, whenReady, if_pos hp, if_pos hc]

theorem exec_start_of_incapable (hp : s.phase = .idle) (hc : s.edgeCapable = false) :
    exec .start s = .next ((s.raise .unsupportedInterruptPin).respond 0) := by
  change execStart s = _
  rw [execStart, whenReady, if_pos hp, hc]
  rfl

theorem exec_endConv_of_capable (hp : s.phase = .idle) (hc : s.edgeCapable = true) :
    exec .endConv s = .next ({ s with ack := true, armed := false }.respond 0) := by
  change execEndConv s = _
  rw [execEndConv, whenReady, if_pos hp, if_pos hc]

theorem exec_endConv_of_incapable (hp : s.phase = .idle) (hc : s.edgeCapable = false) :
    exec .endConv s = .next (s.respond 0) := by
  change execEndConv s = _
  rw [execEndConv, whenReady, if_pos hp, hc]
  rfl

theorem exec_edge_of_closed (d : Level) (tm : Millis) (h : s.armed = false) : exec (.edge d tm) s = .next s := by
  change execEdge d tm s = _
  rw [execEdge, h]
  rfl

end Window

/-- Settles O8: each strap value names the state after `START`, and the rest is read off it. -/
theorem startOpensTheWindowOrFails : Obligations.StartOpensTheWindowOrFails := by
  intro s hp
  refine ⟨fun hc => ⟨_, exec_start_of_capable hp hc, ?_⟩, fun hc => ⟨_, exec_start_of_incapable hp hc, ?_⟩⟩
  · exact ⟨rfl, rfl, rfl, rfl, rfl, fun _ => rfl, .of_fields rfl rfl rfl rfl,
      ⟨rfl, rfl, ⟨rfl, rfl, rfl⟩⟩, ⟨rfl, rfl, rfl⟩, rfl, rfl, rfl⟩
  · exact ⟨rfl, ⟨fun _ => rfl, ⟨rfl, rfl⟩, .of_fields rfl rfl rfl rfl, ⟨rfl, rfl⟩,
      ⟨rfl, rfl, ⟨rfl, rfl, rfl⟩⟩, ⟨rfl, rfl, rfl⟩⟩, rfl, rfl, rfl⟩

/-- Settles O9: each strap value names the state after `END`; on a capable block its window is closed, so an edge there is
lost. -/
theorem endClosesTheWindow : Obligations.EndClosesTheWindow := by
  intro s hp
  cases hc : s.edgeCapable with
  | true =>
    exact ⟨_, exec_endConv_of_capable hp hc, rfl, fun _ => rfl, ⟨rfl, rfl⟩,
      .of_fields rfl rfl rfl rfl, ⟨rfl, rfl, ⟨rfl, rfl, rfl⟩⟩, ⟨rfl, rfl, rfl⟩, rfl, rfl, rfl,
      fun _ => ⟨rfl, rfl, fun d tm => exec_edge_of_closed d tm rfl⟩, nofun⟩
  | false =>
    exact ⟨_, exec_endConv_of_incapable hp hc, rfl, fun _ => rfl, ⟨rfl, rfl⟩,
      .of_fields rfl rfl rfl rfl, ⟨rfl, rfl, ⟨rfl, rfl, rfl⟩⟩, ⟨rfl, rfl, rfl⟩, rfl, rfl, rfl,
      nofun, fun _ => ⟨rfl, rfl⟩⟩

/-- Settles O10: the test of `armed` comes before everything else in `EDGE`. -/
theorem edgeOutsideTheWindowIsLost : Obligations.EdgeOutsideTheWindowIsLost :=
  fun d tm _ h => exec_edge_of_closed d tm h

/-! `EDGE` step 1: the restart. -/

/-- Whether `EDGE` at time `tm` restarts the accumulator: the frame is complete, or it timed out (R122). -/
def restarts (tm : Millis) (s : State) : Bool :=
  frameComplete s || timedOut s tm

theorem restarts_iff {tm : Millis} {s : State} :
    restarts tm s = true ↔ s.bitIndex.toNat = 40 ∨ 25 < (tm - s.startTs).toNat := by
  rw [restarts, Bool.or_eq_true, frameComplete_iff, timedOut_iff]

/-- `EDGE` step 1, field by field: a restart empties the accumulator and stamps it, and only the timeout of an incomplete
frame is a condition (R122, R175). -/
theorem edgeRestart_eq (tm : Millis) (s : State) : edgeRestart tm s =
    { s with
      buf := if restarts tm s then [] else s.buf
      bitIndex := if restarts tm s then 0 else s.bitIndex
      startTs := if restarts tm s then tm else s.startTs
      raised := s.raised ++ if restarts tm s = true ∧ s.bitIndex.toNat ≠ 40 then [.acquisitionTimeout] else [] } := by
  obtain ⟨h40, h⟩ | ⟨h40, hlate, h⟩ | ⟨h40, hintime, h⟩ := edgeRestart_cases tm s
  · have hr : restarts tm s = true := restarts_iff.mpr (.inl h40)
    simp [h, hr, h40, State.clearAccumulator]
  · have hr : restarts tm s = true := restarts_iff.mpr (.inr hlate)
    simp [h, hr, h40, State.clearAccumulator, State.raise]
  · have hr : restarts tm s = false :=
      Bool.eq_false_iff.mpr fun hr => (restarts_iff.mp hr).elim h40 (Nat.not_lt.mpr hintime)
    simp [h, hr]

theorem edgeRestart_of_inTime {tm : Millis} {s : State} (h40 : s.bitIndex.toNat < 40)
    (htm : (tm - s.startTs).toNat ≤ 25) : edgeRestart tm s = s := by
  obtain ⟨h, _⟩ | ⟨_, h, _⟩ | ⟨_, _, h⟩ := edgeRestart_cases tm s
  · omega
  · omega
  · exact h

section Restart

variable (tm : Millis) (s : State)

@[simp] theorem edgeRestart_armed : (edgeRestart tm s).armed = s.armed := by rw [edgeRestart_eq]

theorem edgeRestart_wf {s : State} (h : s.buf.wf = true) : (edgeRestart tm s).buf.wf = true := by
  rw [edgeRestart_eq]
  cases restarts tm s
  · exact h
  · exact Memory.nil_wf

theorem edgeRestart_byteAt (a : Nat) :
    (edgeRestart tm s).byteAt a = if restarts tm s then 0 else s.byteAt a := by
  rw [edgeRestart_eq]
  cases restarts tm s <;> rfl

theorem edgeRestart_bitIndex_toNat :
    (edgeRestart tm s).bitIndex.toNat = if restarts tm s then 0 else s.bitIndex.toNat := by
  rw [edgeRestart_eq]
  cases restarts tm s <;> rfl

theorem edgeRestart_startTs : (edgeRestart tm s).startTs = if restarts tm s then tm else s.startTs := by
  rw [edgeRestart_eq]

theorem edgeRestart_raised : (edgeRestart tm s).raised =
    s.raised ++ if restarts tm s = true ∧ s.bitIndex.toNat ≠ 40 then [.acquisitionTimeout] else [] := by
  rw [edgeRestart_eq]

theorem edgeRestart_sameRegisters : SameRegisters s (edgeRestart tm s) := by
  rw [edgeRestart_eq]
  exact .of_fields rfl rfl rfl rfl

end Restart

/-! `EDGE` steps 2 and 3: the bit, and the decode it may complete. -/

/-- One bit taken, and the buffer validated when it was the fortieth: `EDGE` steps 2 and 3 (R122). -/
def State.receiveBit (s : State) (d : Level) : State :=
  if s.bitIndex.toNat = 39 then (validateBuffer (s.takeBit d)).1 else s.takeBit d

/-- The bit shifted in and then counted, as `EDGE` performs it, is the bit received. -/
theorem edgeCount_shifted (s : State) (d : Level) :
    edgeCount { s with
      buf := s.buf.put (byteIndex s.bitIndex).toNat (shiftByte (s.buf.get (byteIndex s.bitIndex).toNat) d) } =
      s.receiveBit d := by
  have h39 : (s.bitIndex + 1).toNat = 40 ↔ s.bitIndex.toNat = 39 := by bv_omega
  unfold State.receiveBit
  obtain ⟨h, he⟩ | ⟨h, he⟩ := edgeCount_cases { s with
    buf := s.buf.put (byteIndex s.bitIndex).toNat (shiftByte (s.buf.get (byteIndex s.bitIndex).toNat) d) }
  · rw [he, if_pos (h39.mp h)]
    rfl
  · rw [he, if_neg fun h' => h (h39.mpr h')]
    rfl

/-- An edge in an open window restarts the accumulator if it has to, and then receives the bit (R122). -/
theorem exec_edge_of_open (d : Level) (tm : Millis) {s : State} (ha : s.armed = true) (h40 : s.bitIndex.toNat ≤ 40) :
    exec (.edge d tm) s = .next ((edgeRestart tm s).receiveBit d) := by
  have hlt := edgeRestart_bitIndex_lt tm h40
  change execEdge d tm s = _
  obtain ⟨_, hshift⟩ | ⟨h5, _⟩ := shiftIn_cases (byteIndex (edgeRestart tm s).bitIndex) d (edgeRestart tm s)
  · simp only [execEdge, ha, if_true, hshift, edgeCount_shifted]
  · rw [five_le_byteIndex_iff] at h5
    omega

theorem validateBuffer_bitIndex (s : State) : (validateBuffer s).1.bitIndex = s.bitIndex := by
  obtain ⟨_, _, _, _, _, he⟩ := validateFrame_frame s.frame s
  rw [validateBuffer, he]

theorem validateBuffer_validated (s : State) : Validated s.frame s (validateBuffer s).1 :=
  validateFrame_validated s.frame s

section ReceiveBit

variable {s : State} (d : Level)

theorem takeBit_byteAt (h : s.buf.wf = true) (a : Nat) :
    (s.takeBit d).byteAt a =
      if a = s.bitIndex.toNat / 8 then (s.byteAt a <<< 1) ||| d.setWidth 8 else s.byteAt a := by
  rw [State.byteAt, State.takeBit, Memory.get_put _ _ _ h, byteIndex_toNat, shiftByte_eq]
  split_ifs with ha
  · rw [State.byteAt, ha]
  · rfl

theorem takeBit_bitIndex_toNat (h : s.bitIndex.toNat < 40) : (s.takeBit d).bitIndex.toNat = s.bitIndex.toNat + 1 := by
  change (s.bitIndex + 1).toNat = _
  bv_omega

variable (s)

/-- What receiving a bit writes beside taking it: the register file and the record of conditions (R106, R122). -/
theorem receiveBit_frame : ∃ xo xe uo ue, s.receiveBit d =
    { s.takeBit d with
      xObj := xo, xEnv := xe, updObj := uo, updEnv := ue
      raised := s.raised ++ if s.bitIndex.toNat = 39 then frameConditions (s.takeBit d).frame else [] } := by
  unfold State.receiveBit
  split_ifs with h
  · have hraised := validateFrame_raised (s.takeBit d).frame (s.takeBit d)
    obtain ⟨xo, xe, uo, ue, r, he⟩ := validateFrame_frame (s.takeBit d).frame (s.takeBit d)
    rw [he] at hraised
    cases hraised
    exact ⟨xo, xe, uo, ue, he⟩
  · exact ⟨s.xObj, s.xEnv, s.updObj, s.updEnv, by rw [List.append_nil]; rfl⟩

theorem takeBit_sameRegisters : SameRegisters s (s.takeBit d) :=
  .of_fields rfl rfl rfl rfl

end ReceiveBit

/-- The register file after the fortieth bit is as `VALIDATE` leaves it (R122). -/
theorem receiveBit_validated {s : State} (d : Level) (h : s.bitIndex.toNat = 39) :
    Validated (s.takeBit d).frame s (s.receiveBit d) := by
  rw [State.receiveBit, if_pos h]
  exact (validateBuffer_validated _).of_sameRegisters (takeBit_sameRegisters s d)

theorem receiveBit_sameRegisters {s : State} (d : Level) (h : s.bitIndex.toNat ≠ 39) :
    SameRegisters s (s.receiveBit d) := by
  rw [State.receiveBit, if_neg h]
  exact takeBit_sameRegisters s d

/-- Settles O11: the restart is `edgeRestart_eq`, and from the state it leaves the bit is received. -/
theorem edgeRestartsShiftsAndDecodes : Obligations.EdgeRestartsShiftsAndDecodes := by
  intro d tm s ha hwf h40
  have hpos := edgeRestart_bitIndex_lt tm h40
  have hregs := edgeRestart_sameRegisters tm s
  have hvalidated := receiveBit_validated (s := edgeRestart tm s) d
  have hkept := receiveBit_sameRegisters (s := edgeRestart tm s) d
  have hexec := exec_edge_of_open d tm ha h40
  obtain ⟨xo, xe, uo, ue, ht⟩ := receiveBit_frame (edgeRestart tm s) d
  rw [ht] at hvalidated hkept hexec
  refine ⟨_, restarts tm s, (edgeRestart tm s).bitIndex.toNat, hexec, restarts_iff, edgeRestart_bitIndex_toNat tm s,
    takeBit_bitIndex_toNat d hpos, edgeRestart_startTs tm s, fun a => ?_, fun h => (hvalidated h).of_sameRegisters hregs,
    fun h => hregs.trans (hkept h), ?_, ?_⟩
  · rw [← edgeRestart_byteAt]
    exact takeBit_byteAt d (edgeRestart_wf tm hwf) a
  · rw [← edgeRestart_raised]
    rfl
  · rw [edgeRestart_eq]
    exact ⟨⟨rfl, rfl⟩, ⟨rfl, rfl, ⟨rfl, rfl, rfl⟩⟩, ⟨rfl, rfl, rfl⟩, rfl, rfl, rfl⟩

/-! Forty edges in time. -/

/-- The buffer after the first `n` wire bits of a frame have been shifted into it (R51, R100). -/
def wireBuffer (w : BitVec 40) (b : Memory) : Nat → Memory
  | 0 => b
  | n + 1 => (wireBuffer w b n).put (n / 8) (shiftByte ((wireBuffer w b n).get (n / 8)) (Frame.wireBit w n))

theorem execAll_wireShifts_eq (w : BitVec 40) (s : State) {n : Nat} (hn : n ≤ 40) :
    execAll ((List.range n).map (wireShift w)) s = .next { s with buf := wireBuffer w s.buf n } := by
  induction n with
  | zero => rfl
  | succ n ih =>
    have hindex : (BitVec.ofNat 3 (n / 8)).toNat = n / 8 := Nat.mod_eq_of_lt (by omega)
    have hshift := exec_shift_of_lt (i := BitVec.ofNat 3 (n / 8)) (Frame.wireBit w n)
      { s with buf := wireBuffer w s.buf n } (by omega)
    rw [hindex] at hshift
    rw [List.range_succ, List.map_append, execAll_append_of_next (ih (by omega))]
    exact execAll_cons_of_next hshift

/-- The wire bits of `n` whole bytes replace those bytes of the buffer, and the others are as before (R54, R55). -/
theorem wireBuffer_get (w : BitVec 40) {s : State} (hs : s.buf.wf = true) {n : Nat} (hn : n ≤ 5) (a : Nat) :
    (wireBuffer w s.buf (8 * n)).get a = if a < n then frameByte w a else s.buf.get a := by
  obtain ⟨b, hx, _, hget⟩ := execAll_wireShifts w hn hs
  rw [execAll_wireShifts_eq w s (by omega)] at hx
  obtain rfl : wireBuffer w s.buf (8 * n) = b := congrArg State.buf (Host.Outcome.next.inj hx)
  exact hget a

/-- Forty wire bits make the buffer the frame, whatever stood there before (R54). -/
theorem wireBuffer_forty (w : BitVec 40) {s : State} (hs : s.buf.wf = true) :
    (wireBuffer w s.buf 40).frame = Frame.ofWord w := by
  have hget := wireBuffer_get w hs (Nat.le_refl 5)
  simp only [Nat.reduceMul] at hget
  simp [Memory.frame, hget, ofWord_eq_frameByte]

/-- The edge of the `k`-th wire bit, at the time it arrives (R72, R122). -/
def wireEdge (w : BitVec 40) (tm : Nat → Millis) (k : Nat) : Instr :=
  .edge (Frame.wireBit w k) (tm k)

/-- The accumulator in the middle of a frame: the buffer and position after the first `n` wire bits (R22, R23). -/
def State.withWireBits (s : State) (w : BitVec 40) (n : Nat) : State :=
  { s with buf := wireBuffer w s.buf n, bitIndex := BitVec.ofNat 6 n }

section WireEdges

variable (w : BitVec 40) {tm : Nat → Millis} (s : State)

theorem withWireBits_bitIndex_toNat {n : Nat} (hn : n ≤ 40) : (s.withWireBits w n).bitIndex.toNat = n :=
  Nat.mod_eq_of_lt (by omega)

theorem withWireBits_frame (n : Nat) : (s.withWireBits w n).frame = (wireBuffer w s.buf n).frame := rfl

theorem withWireBits_sameRegisters (n : Nat) : SameRegisters s (s.withWireBits w n) :=
  .of_fields rfl rfl rfl rfl

theorem withWireBits_zero (h : s.bitIndex = 0) : s.withWireBits w 0 = s := by
  change { s with bitIndex := 0 } = s
  rw [← h]

theorem takeBit_withWireBits {n : Nat} (hn : n < 40) :
    (s.withWireBits w n).takeBit (Frame.wireBit w n) = s.withWireBits w (n + 1) := by
  have hbyte : (byteIndex (s.withWireBits w n).bitIndex).toNat = n / 8 := by
    rw [byteIndex_toNat, withWireBits_bitIndex_toNat w s (Nat.le_of_lt hn)]
  rw [State.takeBit, hbyte]
  simp only [State.withWireBits, wireBuffer, BitVec.ofNat_add]
  rfl

/-- The next edge in time brings in the next wire bit, and the fortieth is validated (R122, R127). -/
theorem exec_wireEdge {n : Nat} (ha : s.armed = true) (hn : n < 40) (htm : (tm n - s.startTs).toNat ≤ 25) :
    exec (wireEdge w tm n) (s.withWireBits w n) =
      .next (if n = 39 then (validateBuffer (s.withWireBits w (n + 1))).1 else s.withWireBits w (n + 1)) := by
  have hpos := withWireBits_bitIndex_toNat w s (Nat.le_of_lt hn)
  rw [wireEdge, exec_edge_of_open (s := s.withWireBits w n) _ _ ha (by omega),
    edgeRestart_of_inTime (s := s.withWireBits w n) (by omega) htm, State.receiveBit, takeBit_withWireBits w s hn, hpos]

theorem execAll_wireEdges {n : Nat} (ha : s.armed = true) (h0 : s.bitIndex = 0)
    (htm : ∀ k, k < 40 → (tm k - s.startTs).toNat ≤ 25) (hn : n ≤ 39) :
    execAll ((List.range n).map (wireEdge w tm)) s = .next (s.withWireBits w n) := by
  induction n with
  | zero => exact congrArg Host.Outcome.next (withWireBits_zero w s h0).symm
  | succ n ih =>
    rw [List.range_succ, List.map_append, execAll_append_of_next (ih (by omega))]
    have hnext := exec_wireEdge w s ha (by omega) (htm n (by omega))
    rw [if_neg (by omega)] at hnext
    exact execAll_cons_of_next hnext

/-- Forty edges in time on an empty accumulator take the forty wire bits and validate once (R127, R130). -/
theorem execAll_forty_wireEdges (ha : s.armed = true) (h0 : s.bitIndex = 0)
    (htm : ∀ k, k < 40 → (tm k - s.startTs).toNat ≤ 25) :
    execAll ((List.range 40).map (wireEdge w tm)) s = .next (validateBuffer (s.withWireBits w 40)).1 := by
  rw [List.range_succ, List.map_append, execAll_append_of_next (execAll_wireEdges w s ha h0 htm (Nat.le_refl 39))]
  exact execAll_cons_of_next (exec_wireEdge w s ha (by decide) (htm 39 (by decide)))

end WireEdges

/-- A restarted accumulator is not restarted again at the same time: it is empty and its stamp is now (R122). -/
theorem edgeRestart_idem (tm : Millis) (s : State) : edgeRestart tm (edgeRestart tm s) = edgeRestart tm s := by
  obtain ⟨_, h⟩ | ⟨_, _, h⟩ | ⟨_, _, h⟩ := edgeRestart_cases tm s
  · rw [h]
    exact edgeRestart_of_inTime (by simp) (by simp)
  · rw [h]
    exact edgeRestart_of_inTime (by simp) (by simp)
  · rw [h, h]

/-- The restart may be taken out in front of the edge that causes it. -/
theorem exec_edge_edgeRestart (d : Level) (tm : Millis) {s : State} (ha : s.armed = true) (h40 : s.bitIndex.toNat ≤ 40) :
    exec (.edge d tm) (edgeRestart tm s) = exec (.edge d tm) s := by
  rw [exec_edge_of_open d tm ha h40, exec_edge_of_open d tm (by simpa using ha)
    (Nat.le_of_lt (edgeRestart_bitIndex_lt tm h40)), edgeRestart_idem]

/-- Both ways of starting at bit position 0 leave, after the first edge's step 1, an empty accumulator whose stamp the
forty edges keep to. -/
theorem edgeRestart_ready {tm : Nat → Millis} {s : State}
    (h : ((s.bitIndex.toNat = 40 ∨ 25 < (tm 0 - s.startTs).toNat) ∧ ∀ k, k < 40 → (tm k - tm 0).toNat ≤ 25) ∨
      (s.bitIndex = 0 ∧ ∀ k, k < 40 → (tm k - s.startTs).toNat ≤ 25)) :
    (edgeRestart (tm 0) s).bitIndex = 0 ∧ ∀ k, k < 40 → (tm k - (edgeRestart (tm 0) s).startTs).toNat ≤ 25 := by
  obtain ⟨hr, htm⟩ | ⟨h0, htm⟩ := h
  · rw [edgeRestart_eq, restarts_iff.mpr hr]
    exact ⟨rfl, htm⟩
  · rw [edgeRestart_of_inTime (by simp [h0]) (htm 0 (by decide))]
    exact ⟨h0, htm⟩

/-- Settles O12: with the restart taken out in front, the forty edges are those of `execAll_forty_wireEdges`. -/
theorem fortyEdgesDecodeOneFrame : Obligations.FortyEdgesDecodeOneFrame := by
  intro w tm s ha hwf h40 hstart
  obtain ⟨h0, htm⟩ := edgeRestart_ready hstart
  have hforty : execAll ((List.range 40).map (wireEdge w tm)) s =
      .next (validateBuffer ((edgeRestart (tm 0) s).withWireBits w 40)).1 := by
    rw [← execAll_forty_wireEdges w _ (by simpa using ha) h0 htm, List.range_succ_eq_map, List.map_cons]
    simp only [execAll, wireEdge, exec_edge_edgeRestart _ _ ha h40]
  have hframe : ((edgeRestart (tm 0) s).withWireBits w 40).frame = Frame.ofWord w := by
    rw [withWireBits_frame, wireBuffer_forty w (edgeRestart_wf (tm 0) hwf)]
  have hregs : SameRegisters s ((edgeRestart (tm 0) s).withWireBits w 40) :=
    (edgeRestart_sameRegisters (tm 0) s).trans (withWireBits_sameRegisters w _ 40)
  refine ⟨_, hforty, ?_, ?_, ?_⟩
  · rw [validateBuffer_frame, hframe]
  · rw [validateBuffer_bitIndex, withWireBits_bitIndex_toNat w _ (Nat.le_refl 40)]
  · rw [← hframe]
    exact (validateBuffer_validated _).of_sameRegisters hregs

end Sys2Proof.Machine

/-! PROOFS. Proofs/BlockingReader.lean: the rows of the sequencer (R140, R142, R143, R149, R152), that together they
perform the loop of R144, when a read ends and when it hangs (R145, R148), and what a step does with waiting commands and
`live_tick` (R147, R152): the statements cited from 42_blocking_reader.md. -/

namespace Sys2Proof.Machine

/-! `READ`, and every command during a read. -/

/-- What `READ m` leaves when it is accepted (R140). -/
def State.startRead (s : State) (m : Mask) : State :=
  { s with ack := false, req := m, got := 0, attempt := 0, blkBit := 0, phase := .waitLow }

theorem exec_read_of_closed (m : Mask) {s : State} (hp : s.phase = .idle) (ha : s.armed = false) :
    exec (.read m) s = .next (s.startRead m) := by
  change execRead m s = _
  rw [execRead, whenReady, if_pos hp, if_neg (by simp [ha])]
  rfl

/-- The seven host commands are the operations encoded by a command word, and each asks first whether the block is ready
(R76, R152). -/
theorem exec_command_of_busy {i : Instr} {cw : CommandWord} {s : State} (hi : encode i = .event (.cmd cw))
    (hp : s.phase ≠ .idle) : exec i s = .next (s.hold cw) := by
  cases i with
  | read | start | endConv | getO | getE | peekO | peekE =>
    cases hi
    exact if_neg hp
  | edge | pollWaitLow | pollWaitHigh | validate | objFrame | envFrame | shift | checksum | terminator | classify |
    convert | reset => cases hi

/-- Settles O14: `exec_read_of_closed` names the state after `READ`, and the rest is read off it. -/
theorem readStartsTheSequencer : Obligations.ReadStartsTheSequencer :=
  fun m _ hp ha => ⟨_, exec_read_of_closed m hp ha, rfl, rfl, rfl, rfl, rfl, rfl, rfl, fun _ => rfl, ⟨rfl, rfl⟩,
    .of_fields rfl rfl rfl rfl, ⟨rfl, rfl, rfl⟩, ⟨rfl, rfl, rfl, rfl⟩⟩

/-- Settles O15: a ready block accepts the command, and then `READ` asks for the window before it writes anything. -/
theorem readInsideTheWindowIsRefused : Obligations.ReadInsideTheWindowIsRefused := by
  intro m s hp ha
  change execRead m s = _
  rw [execRead, whenReady, if_pos hp, if_pos ha]

/-- Settles O16: a command that is put back is the head of the inputs. -/
theorem commandsWaitWhileBusy : Obligations.CommandsWaitWhileBusy :=
  fun _ _ _ hi hp => ⟨_, exec_command_of_busy hi hp, rfl⟩

/-! The two `POLL` rows: one equation per level of the clock. -/

/-- The sequencer at the next bit of the same attempt (R143). -/
def State.nextBit (s : State) : State :=
  { s with blkBit := s.blkBit + 1, phase := .waitLow }

/-- What a HIGH clock does in phase `WAIT_HIGH`: the next bit, or the end of the attempt after the last (R143). -/
def State.endBit (s : State) : State :=
  if s.blkBit.toNat < 39 then s.nextBit else endAttempt s

theorem endBit_of_lt {s : State} (h : s.blkBit.toNat < 39) : s.endBit = s.nextBit := if_pos h

theorem endBit_of_last {s : State} (h : 39 ≤ s.blkBit.toNat) : s.endBit = endAttempt s := if_neg (Nat.not_lt.mpr h)

theorem nextBit_blkBit_toNat {s : State} (h : s.blkBit.toNat < 39) : s.nextBit.blkBit.toNat = s.blkBit.toNat + 1 := by
  change (s.blkBit + 1).toNat = _
  bv_omega

section Polls

variable {s : State} (d : Level)

theorem exec_pollWaitLow_low (hp : s.phase = .waitLow) (h39 : s.blkBit.toNat ≤ 39) :
    exec (.pollWaitLow 0 d) s = .next (s.tick.sampleBit d) := by
  change execPollWaitLow 0 d s = _
  obtain ⟨_, hshift⟩ | ⟨h5, _⟩ := shiftIn_cases (byteIndex s.blkBit) d s.tick
  · rw [execPollWaitLow, if_pos hp, if_pos rfl, hshift]
    rfl
  · rw [five_le_byteIndex_iff] at h5
    omega

theorem exec_pollWaitLow_high (hp : s.phase = .waitLow) : exec (.pollWaitLow 1 d) s = .next s.tick := by
  change execPollWaitLow 1 d s = _
  rw [execPollWaitLow, if_pos hp, if_neg (by decide)]

theorem exec_pollWaitHigh_low (hp : s.phase = .waitHigh) : exec (.pollWaitHigh 0 d) s = .next s.tick := by
  change execPollWaitHigh 0 d s = _
  rw [execPollWaitHigh, if_pos hp, if_neg (by decide)]

theorem exec_pollWaitHigh_high (hp : s.phase = .waitHigh) : exec (.pollWaitHigh 1 d) s = .next s.tick.endBit := by
  change execPollWaitHigh 1 d s = _
  rw [execPollWaitHigh, if_pos hp, if_pos rfl]
  by_cases h : s.blkBit.toNat < 39
  · rw [endBit_of_lt (s := s.tick) h]
    exact if_pos h
  · rw [endBit_of_last (s := s.tick) (Nat.le_of_not_lt h)]
    exact if_neg h

/-- The bit sampled stands in the byte of its position, and every other byte is as before: what `EDGE` does at the
position `bit_index`, at the position `blk_bit` (R74, R142). -/
theorem sampleBit_byteAt (h : s.buf.wf = true) (a : Nat) :
    (s.sampleBit d).byteAt a =
      if a = s.blkBit.toNat / 8 then (s.byteAt a <<< 1) ||| d.setWidth 8 else s.byteAt a :=
  takeBit_byteAt (s := { s with bitIndex := s.blkBit }) d h a

end Polls

/-- Settles O17: on each level of the clock the row has one equation, and the bit sampled is `sampleBit_byteAt`. -/
theorem pollWaitLowSamplesOnLow : Obligations.PollWaitLowSamplesOnLow := by
  intro c d s hp hwf h39
  obtain rfl | rfl := BitVec.eq_zero_or_eq_one c
  · exact ⟨_, exec_pollWaitLow_low d hp h39, rfl, fun _ => ⟨rfl, sampleBit_byteAt (s := s.tick) d hwf⟩, nofun, rfl,
      ⟨rfl, rfl, rfl⟩, ⟨rfl, rfl⟩, .of_fields rfl rfl rfl rfl, ⟨rfl, rfl⟩, ⟨rfl, rfl, rfl⟩, rfl, rfl, rfl⟩
  · exact ⟨_, exec_pollWaitLow_high d hp, rfl, nofun, fun _ => ⟨hp, fun _ => rfl⟩, rfl,
      ⟨rfl, rfl, rfl⟩, ⟨rfl, rfl⟩, .of_fields rfl rfl rfl rfl, ⟨rfl, rfl⟩, ⟨rfl, rfl, rfl⟩, rfl, rfl, rfl⟩

/-- Settles O19: each row asks first for its own phase. -/
theorem pollOutsideItsPhaseChangesNothing : Obligations.PollOutsideItsPhaseChangesNothing :=
  fun _ _ _ => ⟨fun h => if_neg h, fun h => if_neg h⟩

/-! The end of an attempt. -/

/-- A register file unchanged after a `VALIDATE` may be left out of account. -/
theorem Validated.trans_sameRegisters {f : Frame} {s t u : State} (hv : Validated f s t) (h : SameRegisters t u) :
    Validated f s u := by
  intro ch
  obtain ⟨hupdates, hkeeps⟩ := hv ch
  rw [(h ch).value, (h ch).flag]
  refine ⟨hupdates, fun hn => ?_⟩
  obtain ⟨hx, hu⟩ := hkeeps hn
  exact ⟨(h ch).value.trans hx, (h ch).flag.trans hu⟩

/-- What `got` becomes when an attempt ends (R143). -/
def State.obtained (s : State) : Mask :=
  s.got ||| frameMask s.frame

/-- Whether the read ends with this attempt: the request is met, or the attempt is the last (R143). -/
def State.readStops (s : State) : Bool :=
  requestMet s.req s.obtained || s.attempt == 9

theorem requestMet_iff {req got : Mask} : requestMet req got = true ↔ req &&& got = req := beq_iff_eq

theorem readStops_iff {s : State} : s.readStops = true ↔ s.req &&& s.obtained = s.req ∨ s.attempt = 9 := by
  rw [State.readStops, Bool.or_eq_true, requestMet_iff, beq_iff_eq]

theorem not_readStops {s : State} (hmet : s.req &&& s.obtained ≠ s.req) (h9 : s.attempt ≠ 9) : s.readStops = false :=
  Bool.eq_false_iff.mpr fun h => (readStops_iff.mp h).elim hmet h9

/-- The end of an attempt, field by field: beside what `VALIDATE` writes, the mask gathered, and what the stop test
decides (R143, R176). -/
theorem endAttempt_frame (s : State) : ∃ xo xe uo ue, endAttempt s =
    { s with
      xObj := xo, xEnv := xe, updObj := uo, updEnv := ue
      got := s.obtained
      ack := if s.readStops then true else s.ack
      phase := if s.readStops then .idle else .waitLow
      rsp := if s.readStops then some 0 else s.rsp
      attempt := if s.readStops then s.attempt else s.attempt + 1
      blkBit := if s.readStops then s.blkBit else 0
      raised := s.raised ++ frameConditions s.frame ++
        if s.req &&& s.obtained ≠ s.req ∧ s.attempt = 9 then [.attemptsExhausted] else [] } := by
  have hraised := validateFrame_raised s.frame s
  have hmask := validateFrame_mask s.frame s
  obtain ⟨u, r, hv, hcases⟩ := endAttempt_cases s
  obtain ⟨xo, xe, uo, ue, _, hu⟩ := validateFrame_frame s.frame s
  rw [hv] at hraised hmask hu
  simp only at hraised hmask hu
  subst hu hmask hraised
  have hlast : s.attempt.toNat = 9 ↔ s.attempt = 9 := by bv_omega
  refine ⟨xo, xe, uo, ue, ?_⟩
  simp only [requestMet_iff, Bool.eq_false_iff, ne_eq, hlast] at hcases
  obtain ⟨hmet, he⟩ | ⟨hmet, h9, he⟩ | ⟨hmet, h9, he⟩ := hcases <;> rw [he]
  · have hstop : s.readStops = true := readStops_iff.mpr (.inl hmet)
    simp [finishRead, State.respond, State.obtained, hstop, hmet]
  · have hstop : s.readStops = true := readStops_iff.mpr (.inr h9)
    simp [finishRead, State.respond, State.raise, State.obtained, hstop, hmet, h9]
  · have hstop : s.readStops = false := not_readStops hmet h9
    have hnone : ¬(s.req &&& s.obtained ≠ s.req ∧ s.attempt = 9) := fun h => h9 h.2
    simp only [nextAttempt, hstop, if_neg hnone, List.append_nil, Bool.false_eq_true, if_false]
    rfl

/-- The register file at the end of an attempt is as `VALIDATE` leaves it (R106, R143). -/
theorem endAttempt_validated (s : State) : Validated s.frame s (endAttempt s) := by
  have hv := validateFrame_validated s.frame s
  obtain ⟨u, r, hu, hcases⟩ := endAttempt_cases s
  rw [hu] at hv
  refine hv.trans_sameRegisters ?_
  obtain ⟨_, he⟩ | ⟨_, _, he⟩ | ⟨_, _, he⟩ := hcases <;> rw [he] <;> exact .of_fields rfl rfl rfl rfl

theorem endAttempt_of_readStops {s : State} (h : s.readStops = true) :
    (endAttempt s).phase = .idle ∧ (endAttempt s).ack = true ∧ (endAttempt s).rsp = some 0 ∧
      (endAttempt s).attempt = s.attempt := by
  obtain ⟨_, _, _, _, he⟩ := endAttempt_frame s
  simp [he, h]

theorem endAttempt_of_not_readStops {s : State} (h : s.readStops = false) :
    (endAttempt s).phase = .waitLow ∧ (endAttempt s).ack = s.ack ∧ (endAttempt s).attempt = s.attempt + 1 ∧
      (endAttempt s).blkBit = 0 ∧ (endAttempt s).req = s.req ∧ (endAttempt s).got = s.obtained := by
  obtain ⟨_, _, _, _, he⟩ := endAttempt_frame s
  simp [he, h]

/-- Settles O18: a LOW clock is awaited further; a HIGH one ends the bit, and after the last bit the fields are those of
`endAttempt_frame`, where the stop test is `readStops_iff`. -/
theorem pollWaitHighAdvancesOnHigh : Obligations.PollWaitHighAdvancesOnHigh := by
  intro c d s hp
  obtain rfl | rfl := BitVec.eq_zero_or_eq_one c
  · exact ⟨_, exec_pollWaitHigh_low d hp, rfl, fun _ => rfl, ⟨rfl, rfl⟩, rfl, rfl, ⟨rfl, rfl, rfl⟩, rfl,
      fun _ => ⟨⟨rfl, rfl, ⟨rfl, rfl, rfl⟩⟩, .of_fields rfl rfl rfl rfl, rfl, rfl, rfl⟩, nofun, nofun⟩
  have hexec := exec_pollWaitHigh_high d hp
  by_cases h39 : s.blkBit.toNat < 39
  · rw [endBit_of_lt (s := s.tick) h39] at hexec
    exact ⟨_, hexec, rfl, fun _ => rfl, ⟨rfl, rfl⟩, rfl, rfl, ⟨rfl, rfl, rfl⟩, rfl, nofun,
      fun _ _ => ⟨nextBit_blkBit_toNat (s := s.tick) h39, rfl, ⟨rfl, rfl, rfl⟩, .of_fields rfl rfl rfl rfl, rfl, rfl,
        rfl⟩, fun _ h => absurd h39 (Nat.not_lt.mpr h)⟩
  · rw [endBit_of_last (s := s.tick) (Nat.le_of_not_lt h39)] at hexec
    have hregs : SameRegisters s s.tick := .of_fields rfl rfl rfl rfl
    have hvalidated := (endAttempt_validated s.tick).of_sameRegisters hregs
    obtain ⟨xo, xe, uo, ue, he⟩ := endAttempt_frame s.tick
    rw [he] at hexec hvalidated
    refine ⟨_, hexec, rfl, fun _ => rfl, ⟨rfl, rfl⟩, rfl, rfl, ⟨rfl, rfl, rfl⟩, rfl, nofun,
      fun _ h => absurd h h39, fun _ _ => ⟨hvalidated, rfl, fun hstop => ?_, fun hmet h9 => ?_, rfl⟩⟩
    · have hstops : s.tick.readStops = true := readStops_iff.mpr hstop
      simp [hstops]
    · have hstops : s.tick.readStops = false := not_readStops hmet h9
      simp [hstops]

/-- Settles O20: nothing requested is met by whatever was obtained, so the stop test ends the read. -/
theorem emptyRequestEndsAfterOneAttempt : Obligations.EmptyRequestEndsAfterOneAttempt := by
  intro d s hp hreq h39
  have hstops : s.tick.readStops = true := readStops_iff.mpr (.inl (by simp [hreq]))
  refine ⟨_, exec_pollWaitHigh_high d hp, ?_⟩
  rw [endBit_of_last (s := s.tick) h39]
  exact endAttempt_of_readStops hstops

/-! Looks at the lines, one after another. -/

theorem lookAll_cons_of_next {o : Level × Level} {os : List (Level × Level)} {s t : State} (h : look o s = .next t) :
    lookAll (o :: os) s = lookAll os t := by
  simp only [lookAll, h]

theorem look_of_waitLow (o : Level × Level) {s : State} (hp : s.phase = .waitLow) :
    look o s = exec (.pollWaitLow o.1 o.2) s := by
  simp only [look, hp]

theorem look_of_waitHigh (o : Level × Level) {s : State} (hp : s.phase = .waitHigh) :
    look o s = exec (.pollWaitHigh o.1 o.2) s := by
  simp only [look, hp]

/-- Outside a read a look does nothing (R141). -/
theorem lookAll_of_idle (os : List (Level × Level)) {s : State} (hp : s.phase = .idle) : lookAll os s = .next s := by
  induction os with
  | nil => rfl
  | cons o os ih => rw [lookAll_cons_of_next (t := s) (by simp only [look, hp]), ih]

/-- The clock is at the level the sequencer does not wait for (R148). -/
def AwaitedMissing (s : State) (o : Level × Level) : Prop :=
  (s.phase = .waitLow ∧ o.1 = 1) ∨ (s.phase = .waitHigh ∧ o.1 = 0)

theorem look_of_awaitedMissing {s : State} {o : Level × Level} (h : AwaitedMissing s o) : look o s = .next s.tick := by
  obtain ⟨hp, ho⟩ | ⟨hp, ho⟩ := h
  · rw [look_of_waitLow o hp, ho, exec_pollWaitLow_high o.2 hp]
  · rw [look_of_waitHigh o hp, ho, exec_pollWaitHigh_low o.2 hp]

/-- However often the awaited level is missing, the sequencer waits, and nothing but `live_tick` shows it (R147,
R148). -/
theorem lookAll_of_awaitedMissing {os : List (Level × Level)} {s : State} (h : ∀ o ∈ os, AwaitedMissing s o) :
    ∃ t, lookAll os s = .next t ∧ (t = s ∨ t = s.tick) := by
  induction os generalizing s with
  | nil => exact ⟨s, rfl, .inl rfl⟩
  | cons o os ih =>
    obtain ⟨t, ht, hwaits⟩ := ih (s := s.tick) fun o' ho' => h o' (List.mem_cons_of_mem o ho')
    refine ⟨t, ?_, .inr (hwaits.elim id id)⟩
    rw [lookAll_cons_of_next (look_of_awaitedMissing (h o List.mem_cons_self)), ht]

/-- Settles O21: the state after the looks is the state before them, or that with `live_tick` pulsed. -/
theorem stuckClockHangsTheRead : Obligations.StuckClockHangsTheRead := by
  intro os s hstuck
  have hmissing : ∀ o ∈ os, AwaitedMissing s o := fun o ho =>
    hstuck.imp (fun ⟨hp, hc⟩ => ⟨hp, hc o ho⟩) (fun ⟨hp, hc⟩ => ⟨hp, hc o ho⟩)
  obtain ⟨t, ht, rfl | rfl⟩ := lookAll_of_awaitedMissing hmissing
  all_goals
    exact ⟨_, ht, ⟨fun _ => rfl, ⟨rfl, rfl⟩, .of_fields rfl rfl rfl rfl, ⟨rfl, rfl⟩, ⟨rfl, rfl, ⟨rfl, rfl, rfl⟩⟩,
      ⟨rfl, rfl, rfl⟩⟩, rfl, rfl⟩

/-! The waits of the loop (R144). -/

theorem awaitLow_eq_none_iff {os : List (Level × Level)} : awaitLow os = none ↔ ∀ o ∈ os, o.1 = 1 := by
  induction os with
  | nil => simp [awaitLow]
  | cons o os ih =>
    obtain ⟨c, d⟩ := o
    obtain rfl | rfl := BitVec.eq_zero_or_eq_one c
    · simp [awaitLow]
    · simp [awaitLow, ih]

theorem awaitHigh_eq_none_iff {os : List (Level × Level)} : awaitHigh os = none ↔ ∀ o ∈ os, o.1 = 0 := by
  induction os with
  | nil => simp [awaitHigh]
  | cons o os ih =>
    obtain ⟨c, d⟩ := o
    obtain rfl | rfl := BitVec.eq_zero_or_eq_one c
    · simp [awaitHigh, ih]
    · simp [awaitHigh]

/-- Where the loop's wait for LOW ends, the sequencer has sampled the same bit. -/
theorem lookAll_of_awaitLow {os rest : List (Level × Level)} {d : Level} {s : State} (hp : s.phase = .waitLow)
    (h39 : s.blkBit.toNat ≤ 39) (h : awaitLow os = some (d, rest)) :
    lookAll os s = lookAll rest (s.tick.sampleBit d) := by
  induction os generalizing s with
  | nil => cases h
  | cons o os ih =>
    obtain ⟨c, d'⟩ := o
    obtain rfl | rfl := BitVec.eq_zero_or_eq_one c
    · cases h
      rw [lookAll_cons_of_next ((look_of_waitLow _ hp).trans (exec_pollWaitLow_low d hp h39))]
    · rw [lookAll_cons_of_next (look_of_awaitedMissing (.inl ⟨hp, rfl⟩))]
      exact ih (s := s.tick) hp h39 h

/-- Where the loop's wait for HIGH ends, the sequencer has ended the bit. -/
theorem lookAll_of_awaitHigh {os rest : List (Level × Level)} {s : State} (hp : s.phase = .waitHigh)
    (h : awaitHigh os = some rest) : lookAll os s = lookAll rest s.tick.endBit := by
  induction os generalizing s with
  | nil => cases h
  | cons o os ih =>
    obtain ⟨c, d⟩ := o
    obtain rfl | rfl := BitVec.eq_zero_or_eq_one c
    · rw [lookAll_cons_of_next (look_of_awaitedMissing (.inr ⟨hp, rfl⟩))]
      exact ih (s := s.tick) hp h
    · cases h
      rw [lookAll_cons_of_next ((look_of_waitHigh _ hp).trans (exec_pollWaitHigh_high d hp))]

/-- The read goes on, the acknowledge line as it was (R148). -/
def StillReading (s t : State) : Prop :=
  t.phase ≠ .idle ∧ t.ack = s.ack

theorem lookAll_stillReading {os : List (Level × Level)} {s : State} (hp : s.phase ≠ .idle)
    (h : ∀ o ∈ os, AwaitedMissing s o) : ∃ t, lookAll os s = .next t ∧ StillReading s t := by
  obtain ⟨t, ht, rfl | rfl⟩ := lookAll_of_awaitedMissing h
  · exact ⟨t, ht, hp, rfl⟩
  · exact ⟨_, ht, hp, rfl⟩

/-! One bit, one attempt, and the attempts of the loop (R144). -/

/-- The loop's next bit and the sequencer's: both are still waiting, or both take the same bit into the same byte. -/
theorem lookAll_bit_cases (n : Nat) (os : List (Level × Level)) {s : State} (hp : s.phase = .waitLow)
    (h39 : s.blkBit.toNat ≤ 39) :
    (acquireBits (n + 1) s.blkBit.toNat s.buf os = none ∧ ∃ t, lookAll os s = .next t ∧ StillReading s t) ∨
    ∃ d rest, acquireBits (n + 1) s.blkBit.toNat s.buf os =
        acquireBits n (s.blkBit.toNat + 1) (s.sampleBit d).buf rest ∧
      lookAll os s = lookAll rest (s.tick.sampleBit d).endBit := by
  cases hlow : awaitLow os with
  | none =>
    refine .inl ⟨by simp only [acquireBits, hlow], lookAll_stillReading (by simp [hp]) fun o ho => ?_⟩
    exact .inl ⟨hp, awaitLow_eq_none_iff.mp hlow o ho⟩
  | some p =>
    obtain ⟨d, os'⟩ := p
    rw [lookAll_of_awaitLow hp h39 hlow]
    cases hhigh : awaitHigh os' with
    | none =>
      refine .inl ⟨by simp only [acquireBits, hlow, hhigh], ?_⟩
      exact lookAll_stillReading (s := s.tick.sampleBit d) nofun fun o ho =>
        .inr ⟨rfl, awaitHigh_eq_none_iff.mp hhigh o ho⟩
    | some rest =>
      refine .inr ⟨d, rest, ?_, lookAll_of_awaitHigh rfl hhigh⟩
      simp only [acquireBits, hlow, hhigh, State.sampleBit, byteIndex_toNat]

/-- The sequencer at the end of an attempt: the last bit is in and the clock has risen (R143). -/
def State.attemptIn (s : State) (b : Memory) : State :=
  { s.tick with buf := b, blkBit := 39, phase := .waitHigh }

/-- The inner loop of R144 and the sequencer, from any bit of an attempt on: both are still waiting, or both bring in the
attempt's buffer. -/
theorem lookAll_attempt_cases {n : Nat} (os : List (Level × Level)) {s : State} (hp : s.phase = .waitLow)
    (hn : s.blkBit.toNat + n = 39) :
    (acquireBits (n + 1) s.blkBit.toNat s.buf os = none ∧ ∃ t, lookAll os s = .next t ∧ StillReading s t) ∨
    ∃ b rest, acquireBits (n + 1) s.blkBit.toNat s.buf os = some (b, rest) ∧
      lookAll os s = lookAll rest (endAttempt (s.attemptIn b)) := by
  induction n generalizing s os with
  | zero =>
    obtain h | ⟨d, rest, hloop, hlooks⟩ := lookAll_bit_cases 0 os hp (by omega)
    · exact .inl h
    · have hlast : s.tick.sampleBit d = s.attemptIn (s.sampleBit d).buf := by
        have h39 : s.blkBit = 39 := by bv_omega
        rw [State.attemptIn, ← h39]
        rfl
      refine .inr ⟨_, rest, hloop, ?_⟩
      rw [hlooks, endBit_of_last (s := s.tick.sampleBit d) (Nat.le_of_eq hn.symm), hlast]
  | succ n ih =>
    obtain h | ⟨d, rest, hloop, hlooks⟩ := lookAll_bit_cases (n + 1) os hp (by omega)
    · exact .inl h
    · have hlt : (s.tick.sampleBit d).blkBit.toNat < 39 := by
        change s.blkBit.toNat < 39
        omega
      have hnext : (s.tick.sampleBit d).nextBit.blkBit.toNat = s.blkBit.toNat + 1 := nextBit_blkBit_toNat hlt
      rw [endBit_of_lt hlt] at hlooks
      rw [hloop, hlooks, ← hnext]
      exact ih rest rfl (by omega)

/-- The loop's state and the sequencer's hold the same buffer and the same register file. -/
structure Mirrors (u s : State) : Prop where
  buf : s.buf = u.buf
  registers : SameRegisters u s

theorem Mirrors.frame_eq {u s : State} (h : Mirrors u s) : s.frame = u.frame := by
  rw [State.frame, State.frame, h.buf]

/-- `VALIDATE` on the same frame keeps two register files the same. -/
theorem Validated.sameRegisters {f : Frame} {s s' u u' : State} (hs : Validated f s s') (hu : Validated f u u')
    (h : SameRegisters u s) : SameRegisters u' s' := by
  intro ch
  by_cases hf : updates f ch
  · obtain ⟨hsx, hsu⟩ := (hs ch).1 hf
    obtain ⟨hux, huu⟩ := (hu ch).1 hf
    exact ⟨hsx.trans hux.symm, hsu.trans huu.symm⟩
  · obtain ⟨hsx, hsu⟩ := (hs ch).2 hf
    obtain ⟨hux, huu⟩ := (hu ch).2 hf
    exact ⟨by rw [hsx, hux, (h ch).value], by rw [hsu, huu, (h ch).flag]⟩

theorem Mirrors.endAttempt {u s : State} (h : Mirrors u s) : Mirrors (validateBuffer u).1 (endAttempt s) := by
  have hregs : SameRegisters (validateBuffer u).1 (Machine.endAttempt s) :=
    (endAttempt_validated s).sameRegisters (h.frame_eq ▸ validateBuffer_validated u) h.registers
  refine ⟨?_, hregs⟩
  obtain ⟨_, _, _, _, he⟩ := endAttempt_frame s
  obtain ⟨_, _, _, _, _, hv⟩ := validateFrame_frame u.frame u
  rw [he, validateBuffer, hv]
  exact h.buf

/-- One round of the outer loop and one attempt of the sequencer: both are still waiting, or they validate the same
frame. -/
theorem lookAll_round_cases (n : Nat) (os : List (Level × Level)) {s u : State} (hp : s.phase = .waitLow)
    (h0 : s.blkBit = 0) (hm : Mirrors u s) :
    (attemptLoop (n + 1) s.req s.got u os = none ∧ ∃ t, lookAll os s = .next t ∧ StillReading s t) ∨
    ∃ b v rest, lookAll os s = lookAll rest (endAttempt (s.attemptIn b)) ∧ Mirrors v (endAttempt (s.attemptIn b)) ∧
      attemptLoop (n + 1) s.req s.got u os =
        if s.req &&& (s.attemptIn b).obtained = s.req then some v
        else attemptLoop n s.req (s.attemptIn b).obtained v rest := by
  have hattempt := lookAll_attempt_cases (n := 39) os hp (by simp [h0])
  rw [h0, hm.buf] at hattempt
  obtain ⟨hloop, hwaits⟩ | ⟨b, rest, hloop, hlooks⟩ := hattempt
  · exact .inl ⟨by simp only [attemptLoop]; exact hloop ▸ rfl, hwaits⟩
  · have hmask : (validateBuffer { u with buf := b }).2 = frameMask (s.attemptIn b).frame := validateFrame_mask _ _
    have hmirrors : Mirrors { u with buf := b } (s.attemptIn b) :=
      ⟨rfl, .of_fields (hm.registers .obj).value (hm.registers .env).value (hm.registers .obj).flag
        (hm.registers .env).flag⟩
    have hbits : acquireBits 40 0 u.buf os = some (b, rest) := hloop
    refine .inr ⟨b, _, rest, hlooks, hmirrors.endAttempt, ?_⟩
    simp only [attemptLoop, hbits, hmask, requestMet_iff]
    rfl

/-- The outer loop of R144 and the sequencer, from the start of any attempt on: both are still waiting, or both end the read
with the same buffer and register file. -/
theorem lookAll_attemptLoop_cases {n : Nat} (os : List (Level × Level)) {s u : State} (hp : s.phase = .waitLow)
    (h0 : s.blkBit = 0) (hn : s.attempt.toNat + n = 9) (hm : Mirrors u s) :
    (attemptLoop (n + 1) s.req s.got u os = none ∧ ∃ t, lookAll os s = .next t ∧ StillReading s t) ∨
    ∃ v t, attemptLoop (n + 1) s.req s.got u os = some v ∧ lookAll os s = .next t ∧ t.phase = .idle ∧ t.ack = true ∧
      Mirrors v t := by
  induction n generalizing s u os with
  | zero =>
    obtain h | ⟨b, v, rest, hlooks, hv, hloop⟩ := lookAll_round_cases 0 os hp h0 hm
    · exact .inl h
    · have h9 : s.attempt = 9 := by bv_omega
      obtain ⟨hidle, hack, _⟩ := endAttempt_of_readStops (s := s.attemptIn b) (readStops_iff.mpr (.inr h9))
      refine .inr ⟨v, _, ?_, hlooks.trans (lookAll_of_idle rest hidle), hidle, hack, hv⟩
      rw [hloop]
      exact ite_self (some v)
  | succ n ih =>
    obtain h | ⟨b, v, rest, hlooks, hv, hloop⟩ := lookAll_round_cases (n + 1) os hp h0 hm
    · exact .inl h
    · by_cases hmet : s.req &&& (s.attemptIn b).obtained = s.req
      · obtain ⟨hidle, hack, _⟩ := endAttempt_of_readStops (s := s.attemptIn b) (readStops_iff.mpr (.inl hmet))
        refine .inr ⟨v, _, ?_, hlooks.trans (lookAll_of_idle rest hidle), hidle, hack, hv⟩
        rw [hloop, if_pos hmet]
      · have h9 : s.attempt ≠ 9 := by bv_omega
        have hcontinues : (s.attemptIn b).readStops = false := not_readStops hmet h9
        obtain ⟨hp', hack, hattempt, h0', hreq, hgot⟩ := endAttempt_of_not_readStops hcontinues
        have hn' : (endAttempt (s.attemptIn b)).attempt.toNat + n = 9 := by
          rw [hattempt]
          change (s.attempt + 1).toNat + n = 9
          bv_omega
        have hnext := ih rest hp' h0' hn' hv
        rw [hreq, hgot] at hnext
        rw [hloop, if_neg hmet, hlooks]
        refine hnext.imp_left fun ⟨hnone, t, ht, hreading, hline⟩ => ?_
        exact ⟨hnone, t, ht, hreading, hline.trans hack⟩

/-- Settles O22: `READ` leaves the sequencer at the start of the first of ten attempts, in a state that mirrors the
loop's. -/
theorem sequencerPerformsTheLoop : Obligations.SequencerPerformsTheLoop := by
  intro m s os hp ha
  have hread (o : Option State) (h : attemptLoop 10 m 0 { s with ack := false } os = o) :
      readLoop m s os = o.map fun t => { t with ack := true } := by rw [readLoop, h]
  obtain ⟨hloop, t, ht, hreading, hack⟩ | ⟨v, t, hloop, ht, hidle, hack, hbuf, hregs⟩ :=
    lookAll_attemptLoop_cases (n := 9) os (s := s.startRead m) (u := { s with ack := false }) rfl rfl rfl
      ⟨rfl, .of_fields rfl rfl rfl rfl⟩
  · refine ⟨_, t, exec_read_of_closed m hp ha, ht, fun u hu => ?_, fun _ => ⟨hreading, hack⟩⟩
    cases (hread none hloop).symm.trans hu
  · refine ⟨_, t, exec_read_of_closed m hp ha, ht, fun u hu => ?_, fun hnone => ?_⟩
    · cases (hread (some v) hloop).symm.trans hu
      exact ⟨hidle, fun a => congrArg (Memory.get · a) hbuf,
        .of_fields (hregs .obj).value (hregs .env).value (hregs .obj).flag (hregs .env).flag, hack⟩
    · cases (hread (some v) hloop).symm.trans hnone

/-! Ten attempts end a read (R145, R211). -/

/-- The read has ended, or `n` more clock pulses suffice to end it: ten attempts of forty bits are four hundred. -/
def EndsWithin (n : Nat) (s : State) : Prop :=
  (s.phase = .idle ∧ s.ack = true) ∨
  (s.phase = .waitLow ∧ s.attempt.toNat ≤ 9 ∧ s.blkBit.toNat ≤ 39 ∧ 400 ≤ 40 * s.attempt.toNat + s.blkBit.toNat + n)

/-- One pulse brings one bit in and ends it. -/
theorem lookAll_pulse (d : Level) (os : List (Level × Level)) {s : State} (hp : s.phase = .waitLow)
    (h39 : s.blkBit.toNat ≤ 39) : lookAll ((0, d) :: (1, d) :: os) s = lookAll os (s.tick.sampleBit d).endBit := by
  rw [lookAll_of_awaitLow hp h39 (d := d) (rest := (1, d) :: os) rfl]
  exact lookAll_of_awaitHigh rfl rfl

theorem endBit_endsWithin {n : Nat} {s : State} (h9 : s.attempt.toNat ≤ 9) (h39 : s.blkBit.toNat ≤ 39)
    (hn : 400 ≤ 40 * s.attempt.toNat + s.blkBit.toNat + (n + 1)) : EndsWithin n s.endBit := by
  by_cases hlt : s.blkBit.toNat < 39
  · have hnext := nextBit_blkBit_toNat hlt
    rw [endBit_of_lt hlt]
    exact .inr ⟨rfl, h9, by omega, by change _ ≤ 40 * s.attempt.toNat + _ + n; omega⟩
  · rw [endBit_of_last (Nat.le_of_not_lt hlt)]
    cases hstops : s.readStops
    · obtain ⟨hp, _, hattempt, h0, _⟩ := endAttempt_of_not_readStops hstops
      have hne : s.attempt ≠ 9 := fun h => by simp [readStops_iff.mpr (.inr h)] at hstops
      have hcount : (endAttempt s).attempt.toNat = s.attempt.toNat + 1 := by
        rw [hattempt]
        bv_omega
      have hzero : (endAttempt s).blkBit.toNat = 0 := by rw [h0]; rfl
      exact .inr ⟨hp, by bv_omega, by omega, by omega⟩
    · obtain ⟨hidle, hack, _⟩ := endAttempt_of_readStops hstops
      exact .inl ⟨hidle, hack⟩

theorem lookAll_pulses_of_endsWithin {ds : List Level} {s : State} (h : EndsWithin ds.length s) :
    ∃ t, lookAll (ds.flatMap fun d => [(0, d), (1, d)]) s = .next t ∧ t.phase = .idle ∧ t.ack = true := by
  induction ds generalizing s with
  | nil =>
    obtain ⟨hidle, hack⟩ | ⟨_, h9, h39, hn⟩ := h
    · exact ⟨s, rfl, hidle, hack⟩
    · simp only [List.length_nil] at hn
      omega
  | cons d ds ih =>
    obtain ⟨hidle, hack⟩ | ⟨hp, h9, h39, hn⟩ := h
    · exact ⟨s, lookAll_of_idle _ hidle, hidle, hack⟩
    · obtain ⟨t, ht, hends⟩ := ih (endBit_endsWithin (s := s.tick.sampleBit d) h9 h39 hn)
      exact ⟨t, (lookAll_pulse d _ hp h39).trans ht, hends⟩

/-- Settles O23: from the start of a read four hundred pulses are the ten attempts. -/
theorem tenAttemptsOfPulsesEndTheRead : Obligations.TenAttemptsOfPulsesEndTheRead :=
  fun _ _ hlength hp hattempt h0 =>
    lookAll_pulses_of_endsWithin (.inr ⟨hp, by simp [hattempt], by simp [h0], by simp [hlength]⟩)

/-! Steps: what is taken from the inputs, and `live_tick` (R147, R152). -/

/-- The effect of the operation a step runs. -/
theorem portEffect_of_fetch {i : Instr} {s u t : State} (hf : fetch s = .run i u) (hx : exec i u = .next t) :
    PortEffect u i t := by
  obtain ⟨⟨rest, rfl⟩, hport⟩ := fetch_run_cases hf
  obtain ⟨hp, hi⟩ | ⟨d, tm, rfl⟩ | ⟨hp, c, d, rfl⟩ | ⟨hp, c, d, rfl⟩ | rfl := hport
  · exact portEffect_of_command hp hx hi
  · exact portEffect_of_edge hx
  · exact portEffect_of_pollWaitLow hp hx
  · exact portEffect_of_pollWaitHigh hp hx
  · cases hx
    exact .resets

theorem Gathered.inputs_eq {s u : State} (hg : Gathered s u) : u.inputs = s.inputs := by
  obtain ⟨_, _, _, _, _, _, rfl⟩ := hg
  rfl

theorem Gathered.liveTick_eq {s u : State} (hg : Gathered s u) : u.liveTick = s.liveTick := by
  obtain ⟨_, _, _, _, _, _, rfl⟩ := hg
  rfl

theorem Restarted.inputs_eq {tm : Millis} {s u : State} (h : Restarted tm s u) : u.inputs = s.inputs := by
  obtain rfl | rfl | rfl := h <;> rfl

theorem Restarted.liveTick_eq {tm : Millis} {s u : State} (h : Restarted tm s u) : u.liveTick = s.liveTick := by
  obtain rfl | rfl | rfl := h <;> rfl

theorem validateBuffer_inputs (s : State) : (validateBuffer s).1.inputs = s.inputs := by
  obtain ⟨_, _, _, _, _, he⟩ := validateFrame_frame s.frame s
  rw [validateBuffer, he]

theorem validateBuffer_liveTick (s : State) : (validateBuffer s).1.liveTick = s.liveTick := by
  obtain ⟨_, _, _, _, _, he⟩ := validateFrame_frame s.frame s
  rw [validateBuffer, he]

/-- No operation touches what is still presented (R152). -/
theorem PortEffect.inputs_eq {i : Instr} {s t : State} (h : PortEffect s i t) : t.inputs = s.inputs := by
  cases h with
  | readStarts | windowOpens | startFails | windowCloses | endDoesNothing | peeks | edgeLost | lowAwaited | bitSampled |
    highAwaited | bitEnds | resets => rfl
  | gets ch => simp [readAndAcknowledge_eq]
  | edgeCounts d tm u hr => exact hr.inputs_eq
  | edgeDecodes d tm u hr => exact (validateBuffer_inputs _).trans hr.inputs_eq
  | readEnds c d u _ hg => exact hg.inputs_eq
  | attemptFails c d u _ _ hg => exact hg.inputs_eq

/-- A `POLL` row, in either waiting phase (R141). -/
def IsPoll (i : Instr) : Prop :=
  ∃ c d, i = .pollWaitLow c d ∨ i = .pollWaitHigh c d

/-- `POLL` pulses `live_tick`, and every other operation leaves it (R147). -/
theorem PortEffect.liveTick_cases {i : Instr} {s t : State} (h : PortEffect s i t) :
    (IsPoll i ∧ t.liveTick = true) ∨ (¬IsPoll i ∧ t.liveTick = s.liveTick) := by
  cases h with
  | readStarts | windowOpens | startFails | windowCloses | endDoesNothing | edgeLost | resets =>
    exact .inr ⟨by simp [IsPoll], rfl⟩
  | peeks ch => exact .inr ⟨by cases ch <;> simp [IsPoll, peeker], rfl⟩
  | gets ch => exact .inr ⟨by cases ch <;> simp [IsPoll, getter], by simp [readAndAcknowledge_eq]⟩
  | edgeCounts d tm u hr => exact .inr ⟨by simp [IsPoll], hr.liveTick_eq⟩
  | edgeDecodes d tm u hr => exact .inr ⟨by simp [IsPoll], (validateBuffer_liveTick _).trans hr.liveTick_eq⟩
  | lowAwaited c d | bitSampled c d => exact .inl ⟨⟨c, d, .inl rfl⟩, rfl⟩
  | highAwaited c d | bitEnds c d => exact .inl ⟨⟨c, d, .inr rfl⟩, rfl⟩
  | readEnds c d u _ hg => exact .inl ⟨⟨c, d, .inr rfl⟩, hg.liveTick_eq⟩
  | attemptFails c d u _ _ hg => exact .inl ⟨⟨c, d, .inr rfl⟩, hg.liveTick_eq⟩

/-- What a step during a read leaves presented: the commands are those presented before (R152). -/
theorem fetch_keeps_commands {s u : State} (hp : s.phase ≠ .idle) (hf : fetch s = .hold u ∨ ∃ i, fetch s = .run i u) :
    u.inputs.filter presentsCommand = s.inputs.filter presentsCommand := by
  have hbusy : s.cmdReady = false := Bool.eq_false_iff.mpr fun h => hp ((State.cmdReady_iff s).mp h)
  have hcases := fetch_cases s
  rw [hbusy] at hcases
  obtain ⟨_, h⟩ | ⟨n, rest, hn, h | ⟨_, i, _, _, h⟩ | ⟨cw, _, _, h⟩⟩ := hcases
  · obtain rfl : s.quiet = u := by simpa [h] using hf
    rfl
  · obtain rfl : s.accept rest = u := by simpa [h] using hf
    exact (nextInstant_busy _ _ _ hn).2
  · obtain rfl : s.accept rest = u := by simpa [h] using hf
    exact (nextInstant_busy _ _ _ hn).2
  · simp [h] at hf

/-- Settles O52: what the step takes is no command, and what it performs leaves the inputs. -/
theorem commandsStayPendingDuringARead : Obligations.CommandsStayPendingDuringARead := by
  intro s t hp h
  obtain ⟨hf, _⟩ | ⟨i, u, hf, hx⟩ := step_next_cases h
  · exact fetch_keeps_commands hp (.inl hf)
  · rw [(portEffect_of_fetch hf hx).inputs_eq]
    exact fetch_keeps_commands hp (.inr ⟨i, hf⟩)

/-- Settles O57: a step begins with `live_tick` LOW, and of the operations only a `POLL` row pulses it. -/
theorem liveTickPulsesOncePerPoll : Obligations.LiveTickPulsesOncePerPoll := by
  intro s t h
  obtain ⟨hf, ht⟩ | ⟨i, u, hf, hx⟩ := step_next_cases h
  · have hlow : t.liveTick = false := by obtain rfl | ⟨_, rfl⟩ := ht <;> rfl
    simp [hf, hlow]
  · obtain ⟨⟨rest, rfl⟩, _⟩ := fetch_run_cases hf
    obtain ⟨⟨c, d, hi⟩, ht⟩ | ⟨hi, ht⟩ := (portEffect_of_fetch hf hx).liveTick_cases
    · exact iff_of_true ht ⟨c, d, _, hi.imp (fun e => e ▸ hf) (fun e => e ▸ hf)⟩
    · rw [hf]
      exact iff_of_false (by simp [ht]) fun ⟨c, d, _, h⟩ =>
        hi ⟨c, d, h.imp (fun e => (Fetched.run.inj e).1) (fun e => (Fetched.run.inj e).1)⟩

/-! Instants that make no step. -/

/-- Settles O58: an instant without a step is taken and no more; an edge outside the window is lost by O10. -/
theorem instantWithoutAStepLeavesTheBlock : Obligations.InstantWithoutAStepLeavesTheBlock := by
  intro s n rest hn hr hevent
  have hstep : step s = .next (s.accept rest) := by
    obtain he | ⟨hp, l, he⟩ | ⟨ha, e, he⟩ := hevent
    · have hc : n.code = none := by simp [Instant.code, hr, he]
      simp only [step, fetch, nextInstant_of_presentsNext hn, hc]
    · have hd : decode s.phase (.event (.poll l)) = .error .noStep := by rw [hp]; rfl
      simp only [step, fetch, nextInstant_of_presentsNext hn, Instant.code_of_event hr he, hd]
    · rw [step_of_presentsNext hn (Instant.code_of_event hr he) rfl]
      exact exec_edge_of_closed _ _ ha
  exact ⟨_, hstep, ⟨fun _ => rfl, ⟨rfl, rfl⟩, .of_fields rfl rfl rfl rfl, ⟨rfl, rfl⟩, ⟨rfl, rfl, ⟨rfl, rfl, rfl⟩⟩,
    ⟨rfl, rfl, rfl⟩⟩, rfl, rfl, rfl⟩

end Sys2Proof.Machine

/-! PROOFS. Proofs/ChannelAccess.lean: the getters and the peeks (R160 to R165), what each answers and all that it leaves
unchanged: the statements cited from 43_channel_access.md. -/

namespace Sys2Proof.Machine

/-! What read-and-acknowledge leaves unchanged: the other entry, and everything outside the register file. -/

section ReadAndAcknowledge

variable (s : State)

theorem readAndAcknowledge_sameEntry {ch ch' : Channel} (h : ch' ≠ ch) : SameEntry ch' s (readAndAcknowledge ch s) :=
  ⟨readAndAcknowledge_x ch s ch', by simp [readAndAcknowledge_eq, h]⟩

variable (ch : Channel)

theorem readAndAcknowledge_sameBuffer : SameBuffer s (readAndAcknowledge ch s) :=
  fun a => by simp [readAndAcknowledge_eq]

theorem readAndAcknowledge_sameAccumulator : SameAccumulator s (readAndAcknowledge ch s) :=
  ⟨readAndAcknowledge_bitIndex ch s, readAndAcknowledge_startTs ch s⟩

theorem readAndAcknowledge_sameWindow : SameWindow s (readAndAcknowledge ch s) :=
  ⟨readAndAcknowledge_armed ch s, by simp [readAndAcknowledge_eq]⟩

theorem readAndAcknowledge_sameSequencer : SameSequencer s (readAndAcknowledge ch s) := by
  refine ⟨?_, ?_, ?_, ?_, ?_⟩ <;> simp [readAndAcknowledge_eq]

theorem readAndAcknowledge_sameOutside : SameOutside s (readAndAcknowledge ch s) := by
  constructor <;> simp [readAndAcknowledge_eq]

@[simp] theorem readAndAcknowledge_liveTick : (readAndAcknowledge ch s).liveTick = s.liveTick := by
  simp [readAndAcknowledge_eq]
@[simp] theorem readAndAcknowledge_raised : (readAndAcknowledge ch s).raised = s.raised := by
  simp [readAndAcknowledge_eq]
@[simp] theorem readAndAcknowledge_returned : (readAndAcknowledge ch s).returned = s.returned := by
  simp [readAndAcknowledge_eq]

end ReadAndAcknowledge

/-- Settles O5: a ready block performs read-and-acknowledge, whose effect and frame are stated above. -/
theorem gettersReadAndAcknowledge : Obligations.GettersReadAndAcknowledge :=
  fun ch s hp => ⟨readAndAcknowledge ch s, exec_getter_of_idle ch hp, readAndAcknowledge_rsp ch s,
    readAndAcknowledge_upd_same ch s, readAndAcknowledge_x ch s ch, fun _ h => readAndAcknowledge_sameEntry s h,
    readAndAcknowledge_sameBuffer s ch, readAndAcknowledge_sameAccumulator s ch, readAndAcknowledge_sameWindow s ch,
    readAndAcknowledge_sameSequencer s ch, readAndAcknowledge_sameOutside s ch, readAndAcknowledge_liveTick s ch,
    readAndAcknowledge_raised s ch, readAndAcknowledge_returned s ch⟩

/-- Settles O7: the getter leaves the block ready and the value in place, so the same getter completes again with the
same response. -/
theorem secondReadReturnsTheSameValue : Obligations.SecondReadReturnsTheSameValue := by
  intro ch s hp
  have hready : (readAndAcknowledge ch s).phase = .idle := (readAndAcknowledge_sameSequencer s ch).phase.trans hp
  have hsecond : (readAndAcknowledge ch (readAndAcknowledge ch s)).rsp = some (s.x ch) := by
    rw [readAndAcknowledge_rsp, readAndAcknowledge_x]
  exact ⟨_, _, exec_getter_of_idle ch hp, exec_getter_of_idle ch hready, readAndAcknowledge_rsp ch s,
    readAndAcknowledge_upd_same ch s, hsecond, readAndAcknowledge_upd_same ch _⟩

/-! The peeks: a response, and nothing else written. -/

/-- The response port is no part of the block (R16, R20). -/
theorem sameBlock_respond (s : State) (v : Word32) : SameBlock s (s.respond v) :=
  ⟨fun _ => rfl, ⟨rfl, rfl⟩, .of_fields rfl rfl rfl rfl, ⟨rfl, rfl⟩, ⟨rfl, rfl, ⟨rfl, rfl, rfl⟩⟩, ⟨rfl, rfl, rfl⟩⟩

/-- A peek that finds the block ready answers the flag at once (R162, R163). -/
theorem exec_peeker_of_idle (ch : Channel) {s : State} (hp : s.phase = .idle) :
    exec (peeker ch) s = .next (s.respond (peekFlag ch s)) := by
  cases ch <;> exact if_pos hp

/-- Settles O6: a ready block only drives the response port, with the flag as a word. -/
theorem peeksReadTheFlagOnly : Obligations.PeeksReadTheFlagOnly :=
  fun ch s hp => ⟨s.respond (peekFlag ch s), exec_peeker_of_idle ch hp, congrArg some (peekFlag_eq ch s),
    sameBlock_respond s _, rfl, rfl, rfl⟩

end Sys2Proof.Machine

/-! PROOFS. Proofs/Exceptions.lean: the step with nothing to perform (R192, R152) and `RESET` against a simultaneous event
(R179): the statements cited from 60_exceptions.md. -/

namespace Sys2Proof.Machine

/-! Nothing to perform: only the output ports go quiet. -/

theorem State.cmdReady_eq_false_iff {s : State} : s.cmdReady = false ↔ s.phase ≠ .idle := by
  rw [← Bool.not_eq_true, ne_eq, State.cmdReady_iff]

/-- A ready block has nothing to take only when nothing is presented; during a read commands may be waiting (R152). -/
theorem nextInstant_eq_none_iff_phase {s : State} : nextInstant s.cmdReady s.inputs = none ↔
    (s.phase = .idle ∧ s.inputs = []) ∨ (s.phase ≠ .idle ∧ ∀ w ∈ s.inputs, IsCommand w) := by
  rw [nextInstant_none_iff, State.cmdReady_eq_false_iff]
  constructor
  · rintro (hi | hbusy)
    · by_cases hp : s.phase = .idle
      · exact .inl ⟨hp, hi⟩
      · exact .inr ⟨hp, by simp [hi]⟩
    · exact .inr hbusy
  · rintro (⟨_, hi⟩ | hbusy)
    · exact .inl hi
    · exact .inr hbusy

theorem step_of_nextInstant_none {s : State} (h : nextInstant s.cmdReady s.inputs = none) : step s = .next s.quiet := by
  simp only [step, fetch, h]

/-- The output ports are no part of the block (R16, R20). -/
theorem sameBlock_quiet (s : State) : SameBlock s s.quiet :=
  ⟨fun _ => rfl, ⟨rfl, rfl⟩, .of_fields rfl rfl rfl rfl, ⟨rfl, rfl⟩, ⟨rfl, rfl, ⟨rfl, rfl, rfl⟩⟩, ⟨rfl, rfl, rfl⟩⟩

/-- Settles O44: the hypothesis says that no instant can be taken, and then the step answers the quiet state. -/
theorem stepHoldsWithNothingToPerform : Obligations.StepHoldsWithNothingToPerform :=
  fun s h => ⟨s.quiet, step_of_nextInstant_none (nextInstant_eq_none_iff_phase.mpr h), sameBlock_quiet s, rfl, rfl, rfl⟩

/-! `RESET` and a simultaneous event. -/

/-- An instant that stands first and does not wait for `cmd_ready` is next in every phase. -/
theorem presentsNext_of_head {s : State} {n : Instant} {rest : List Instant} (hi : s.inputs = n :: rest)
    (hn : ¬IsCommand n) : PresentsNext s n rest := by
  by_cases hp : s.phase = .idle
  · exact .inl ⟨hp, hi⟩
  · exact .inr ⟨hp, hn, [], rest, List.forall_mem_nil _, hi, rfl⟩

/-- With `rst` HIGH an instant is no command that waits, whatever event comes with it. -/
theorem not_isCommand_of_rst (e : Option Event) : ¬IsCommand ⟨true, e⟩ := by
  simp [IsCommand]

/-- Settles O45: an instant with `rst` HIGH never waits, and its code is that of the `rst` port, not that of its event. -/
theorem resetWinsOverAnythingSimultaneous : Obligations.ResetWinsOverAnythingSimultaneous :=
  fun _ e _ hi => step_of_presentsNext (presentsNext_of_head hi (not_isCommand_of_rst e)) (Instant.code_of_rst rfl) rfl

end Sys2Proof.Machine

/-! PROOFS. Proofs/Reset.lean: what `RESET` leaves, from every state (R36, R200, R201): the statement cited from
70_reset_and_hazards.md. -/

namespace Sys2Proof.Machine

/-- `RESET` is performed in every phase: unlike a host command it does not wait for `cmd_ready` (R200, R152). -/
theorem exec_reset (s : State) : exec .reset s = .next s.afterReset := rfl

/-! What stands behind an accessor, or outside the block, after `RESET`. -/

section AfterReset

variable (s : State)

@[simp] theorem State.afterReset_byteAt (a : Nat) : s.afterReset.byteAt a = 0x00 := Memory.get_nil a

@[simp] theorem State.afterReset_upd (ch : Channel) : s.afterReset.upd ch = false := by
  cases ch with
  | obj => rfl
  | env => rfl

/-- `RESET` produces no response, not even that of the `READ` it abandons (R201). -/
theorem State.afterReset_samePorts : SamePorts s s.afterReset where
  rsp := rfl
  liveTick := rfl
  raised := rfl
  returned := rfl

end AfterReset

/-- Settles O41: the state `RESET` leaves reads as an empty buffer with both flags clear, has the ports of before, and each
remaining field is written with the value stated or, for the strap and the inputs, not written. -/
theorem resetPutsEveryFieldAtItsValue : Obligations.ResetPutsEveryFieldAtItsValue := by
  intro s
  refine ⟨s.afterReset, exec_reset s, s.afterReset_byteAt, ?bitIndex, ?startTs, s.afterReset_upd, ?armed, ?ack, ?phase,
    ?attempt, ?blkBit, ?req, ?got, ?strap, ?inputs, s.afterReset_samePorts⟩
  all_goals rfl

end Sys2Proof.Machine
